-- ==== Sys2Proof/Word.lean ====
section
/-! DEFINITION. The words of the block: bytes, 24-bit addresses, byte sequences (00_scope.md section 4, R3). -/

namespace Sys2Proof

/-- A byte: 8 bits, unsigned, bit 7 the most significant (00_scope.md section 4). -/
abbrev Byte := BitVec 8

/-- A RegisterAddress: 24-bit unsigned (R3 `ADDR_BITS`, R31). -/
abbrev RegAddr := BitVec 24

/-- A flash address as it travels on the wire: 24 bits (R32). -/
abbrev FlashAddr := BitVec 24

/-- A FirmwareImage: a raw ordered byte sequence (R33). -/
abbrev Image := List Byte

end Sys2Proof
end

