-- ==== Sys2Proof/Config.lean ====
section
/-! DEFINITION. Constants the spec fixes (R3), the parameters it leaves open (R5), the configuration
record the host supplies with a reset (R4, R170), and the free values. -/

namespace Sys2Proof

/-! ## Constants (R3) -/

/-- BitFrame byte 0 for a logical 1. -/
def mark1 : Byte := 0x80
/-- BitFrame byte 0 for a logical 0. -/
def mark0 : Byte := 0xFE
/-- BitFrame byte 9. -/
def stopMark : Byte := 0xFE
/-- Every byte of the terminator. -/
def termByte : Byte := 0x80
/-- AddressHeader byte 0. -/
def syncByte : Byte := 0x5A
/-- AddressHeader byte 4. -/
def hdrTrailer : Byte := 0x00
/-- How many low bits of a register address mean something to the target (R3, R31): of an address with
a bit above them set no claim is made (U3, log 23). -/
def addrMeaningfulBits : Nat := 20
/-- Bytes in one BitFrame and in the terminator. -/
def frameLen : Nat := 10
/-- Bytes in the AddressHeader. -/
def headerLen : Nat := 5
def fcWriteEnable : Byte := 0x06
def fcWakeUp : Byte := 0xAB
def fcUnlock : Byte := 0x01
def fcEraseAll : Byte := 0x60
def fcSectorErase : Byte := 0x20
def fcPageProgram : Byte := 0x02
/-- Each of the two "unlock all" payload bytes. -/
def unlockPayload : Byte := 0x00
/-- The value that raises chip-select. -/
def csHighVal : Byte := 0x01
/-- The value `softReset` writes. -/
def mcuResetVal : Byte := 0x20
/-- The erase unit in bytes. -/
def sectorSize : Nat := 4096
/-- The largest `programPage` payload. -/
def pageChunk : Nat := 256
def tResetPulseMs : Nat := 100
def tSectorEraseMs : Nat := 300
def tPageProgramMs : Nat := 10
/-- The fixed UART rate (R3, R99). -/
def baudRate : Nat := 921600
/-- The longest image `program` takes (R132, R140): 2^24 bytes. -/
def imageLimit : Nat := 2 ^ 24

/-! ## Parameters of the instance (R5) -/

/-- Parity of a UART character. DESIGN CHOICE (log 26): the spec leaves the format wholly open (R5, D22,
N9); these are the five parities that serial devices commonly offer. No rule reads it. -/
inductive Parity where
  | none | odd | even | mark | space
  deriving DecidableEq, Repr, Inhabited

/-- UART character format: OPEN in the spec, and no rule depends on it (R5, R99, U20). R5 names its
three parts; what values each can have is a DESIGN CHOICE (log 26). -/
structure UartFormat where
  dataBits : Nat
  parity : Parity
  /-- The stop bits, counted in halves of a bit, so that one and a half can be said. -/
  stopHalfBits : Nat
  deriving DecidableEq, Repr, Inhabited

/-- The parameters the spec leaves open (R5), fixed for one instance of the hardware. -/
structure Params where
  /-- `PAD[1..8]`: bytes 1 to 8 of every BitFrame. -/
  pad : Vector Byte 8
  regFlashCs : RegAddr
  regFlashData : RegAddr
  regExtMode : RegAddr
  regMcuCtrl : RegAddr
  regCpuStop : RegAddr
  regSpeed : RegAddr
  csLowVal : Byte
  extModeFifoVal : Byte
  extModeNormalVal : Byte
  cpuStopVal : Byte
  speedVal : Byte
  /-- `T_ERASE_ALL_MS`. -/
  eraseAllMs : Nat
  /-- `MAX_DATA_LEN`: the longest `data` the command port carries. -/
  maxDataLen : Nat
  /-- `LINE_A`, `LINE_B`: names only (R5, U19). -/
  lineAName : String
  lineBName : String
  uart : UartFormat
  deriving DecidableEq, Repr

/-- The constraints a choice of parameters must meet: R40 (the fold's two registers adjacent, the
other four distinct from each other and from those two), R5 (the two mode values distinct,
`MAX_DATA_LEN >= 260`). The last conjunct, chip-select low and high different, is DEDUCED: the spec
speaks of two levels and never says it (log 4). -/
abbrev Params.valid (p : Params) : Prop :=
  p.regFlashCs.toNat = p.regFlashData.toNat + 1 ∧
  [p.regFlashData, p.regFlashCs, p.regExtMode, p.regMcuCtrl, p.regCpuStop, p.regSpeed].Nodup ∧
  p.extModeFifoVal ≠ p.extModeNormalVal ∧
  260 ≤ p.maxDataLen ∧
  p.csLowVal ≠ csHighVal

/-- The six registers lie where the target tells addresses apart (R3, R31): of an address with a bit
above the low 20 set no claim is made about the register it hits (U3). -/
abbrev Params.meaningful (p : Params) : Prop :=
  p.regFlashData.toNat < 2 ^ addrMeaningfulBits ∧ p.regFlashCs.toNat < 2 ^ addrMeaningfulBits ∧
  p.regExtMode.toNat < 2 ^ addrMeaningfulBits ∧ p.regMcuCtrl.toNat < 2 ^ addrMeaningfulBits ∧
  p.regCpuStop.toNat < 2 ^ addrMeaningfulBits ∧ p.regSpeed.toNat < 2 ^ addrMeaningfulBits

/-- The command port carries `data` of this length (R78, R94): up to `MAX_DATA_LEN`, which is at
least 260 (R5). -/
def Params.carries (p : Params) (len : Nat) : Bool :=
  decide (len ≤ 260) || decide (len ≤ p.maxDataLen)

/-- The configuration record (R4, R22): supplied by the host with the reset (R170). -/
structure RunConfig where
  /-- An opaque identifier of the serial device. -/
  portPath : String
  /-- The rate the port is opened at (R90, R99): fixed, so that a reset sets it to 921600 whatever the
  host supplies (log 5). -/
  baudRate : Nat
  activationDurationMs : Nat
  deriving DecidableEq, Repr

/-! ## Outcomes the environment chooses (R90, R91, R182, R98) -/

/-- What the device does when it is opened (R90). -/
inductive OpenResult where
  | opened | refused
  deriving DecidableEq, Repr, Inhabited

/-- What becomes of a transport write (R91): it succeeds, it fails, or it never completes (R182). -/
inductive WriteResult where
  | ok | fails | never
  deriving DecidableEq, Repr, Inhabited

/-- What the monotonic clock does before a reading (R98): it advances by any amount, or it has
stopped (R182). Where the flood's loop tests the deadline, a stop before it is a hang; at the reading
that sets the deadline a stop counts as no advance (DESIGN CHOICE, log 3). -/
inductive Tick where
  | advance (ms : Nat)
  | stopped
  deriving DecidableEq, Repr, Inhabited

/-! ## Free values: no body, so nothing can be proved of them -/

namespace Config

/-- OPEN parameters of the instance behind `State.reset` (log 4). -/
opaque freePad : Vector Byte 8
opaque freeRegExtMode : RegAddr
opaque freeRegMcuCtrl : RegAddr
opaque freeRegCpuStop : RegAddr
opaque freeRegSpeed : RegAddr
opaque freeExtModeFifoVal : Byte
opaque freeExtModeNormalVal : Byte
opaque freeCpuStopVal : Byte
opaque freeSpeedVal : Byte
opaque freeMaxDataLen : Nat
opaque freeLineAName : String
opaque freeLineBName : String
opaque freeUart : UartFormat
/-- The serial device of the run behind `State.reset` (log 5). -/
opaque freePortPath : String

/-- Outcomes drawn when the lists of `Env` are used up (log 1, log 2); the argument is the draw's
index, so that every draw is fresh. -/
opaque freeOpen : Nat → OpenResult
opaque freeWrite : Nat → WriteResult
/-- How far the clock moves before a reading. -/
opaque freeAdvance : Nat → Nat
/-- The number of flood writes still to come (R131: "a free natural number chosen by the
environment"). -/
opaque freeFlood : Nat → Nat

/-- The instance behind `State.reset`: the spec's proposed values where R5 gives one, free values
where it says OPEN (log 4). -/
def givenParams : Params where
  pad := freePad
  regFlashCs := 0x00000D
  regFlashData := 0x00000C
  regExtMode := freeRegExtMode
  regMcuCtrl := freeRegMcuCtrl
  regCpuStop := freeRegCpuStop
  regSpeed := freeRegSpeed
  csLowVal := 0x00
  extModeFifoVal := freeExtModeFifoVal
  extModeNormalVal := freeExtModeNormalVal
  cpuStopVal := freeCpuStopVal
  speedVal := freeSpeedVal
  eraseAllMs := 3500
  maxDataLen := freeMaxDataLen
  lineAName := freeLineAName
  lineBName := freeLineBName
  uart := freeUart

/-- The configuration record behind `State.reset`: `baud_rate` as fixed and `activation_duration_ms` at
its default (R4). -/
def givenRun : RunConfig where
  portPath := freePortPath
  baudRate := Sys2Proof.baudRate
  activationDurationMs := 1000

end Config

end Sys2Proof
end

