-- ==== Sys2Proof/Machine/Bitstream.lean ====
section
/-! DEFINITION. The BitFrame converter and the SWire framing unit (40_bitstream_encoder.md): the pure
functions of the encoder. None reads or writes a state variable, none can fail. -/

namespace Sys2Proof

/-- Bits 23..16 of a 24-bit address (R53, R57). -/
def addrHi (a : BitVec 24) : Byte := a.extractLsb' 16 8
/-- Bits 15..8 of a 24-bit address (R53, R57). -/
def addrMid (a : BitVec 24) : Byte := a.extractLsb' 8 8
/-- Bits 7..0 of a 24-bit address (R53, R57). -/
def addrLo (a : BitVec 24) : Byte := a.extractLsb' 0 8

/-- The 24-bit address whose three bytes, high to low, are given (the inverse of the three slices). -/
def addrOfBytes (hi mid lo : Byte) : BitVec 24 := hi ++ mid ++ lo

/-- `bitFrame(b)` (R50, R70): ten bytes. -/
def bitFrame (p : Params) (b : Bool) : List Byte :=
  (if b then mark1 else mark0) :: (p.pad.toList ++ [stopMark])

/-- `termFrame` (R51, R71): ten bytes `0x80`. -/
def termFrame : List Byte := List.replicate frameLen termByte

/-- The bits of a byte, bit 7 first (R34 a, R52). -/
def bitsMsbFirst (v : Byte) : List Bool :=
  [v.getLsbD 7, v.getLsbD 6, v.getLsbD 5, v.getLsbD 4,
   v.getLsbD 3, v.getLsbD 2, v.getLsbD 1, v.getLsbD 0]

/-- `expandByte(v)` (R52, R72): eight BitFrames, bit 7 first. -/
def expandByte (p : Params) (v : Byte) : List Byte :=
  (bitsMsbFirst v).flatMap (bitFrame p)

/-- `header(addr)` (R53, R73): five source bytes. -/
def header (addr : RegAddr) : List Byte :=
  [syncByte, addrHi addr, addrMid addr, addrLo addr, hdrTrailer]

/-- The source bytes of a packet, header first (R74). -/
def packetSource (addr : RegAddr) (data : List Byte) : List Byte :=
  header addr ++ data

/-- `encode(addr, data)` (R54, R74): the PacketBuffer. -/
def encodePacket (p : Params) (addr : RegAddr) (data : List Byte) : List Byte :=
  (packetSource addr data).flatMap (expandByte p) ++ termFrame

end Sys2Proof
end

