-- ==== Sys2Proof/Syntax.lean ====
section
/-! DEFINITION. The instructions: one constructor per row of spec/opcode_table.json, and what the host
presents at the command port to have one issued (R60, R62, R188). -/

namespace Sys2Proof

/-- The state a closing step leads to (R108, R109: "`next` is `Idle` or `Programming`"). -/
inductive Closing where
  | toIdle | toProgramming
  deriving DecidableEq, Repr

/-- One constructor per row of spec/opcode_table.json. The first sixteen are the operations of R60;
the rows of the formats are the internal steps and functions that put the format out (log 10,
log 13). -/
inductive Instr where
  | encode (addr : RegAddr) (data : List Byte)
  | writeReg (addr : RegAddr) (data : List Byte)
  | writeEnable
  | wakeUp
  | eraseAll
  | unlock
  | writeFifoReg (addr : RegAddr) (data : List Byte)
  | sectorErase (addr : FlashAddr)
  | programPage (addr : FlashAddr) (data : List Byte)
  | softReset
  | settle (ms : Nat)
  | activate
  | program (image : Image)
  /-- `none` is the mark `Unreadable` (R135). -/
  | session (image : Option Image)
  | openPort
  | closePort
  | reservedOp (code : BitVec 5)
  | flashWriteEnable
  | flashWakeUp
  | flashEraseAll
  | flashUnlock
  | flashSectorErase
  | flashPageProgram
  | flashUnlockString
  | flashSectorEraseString (addr : FlashAddr)
  | flashPageProgramPrefix (addr : FlashAddr) (payload : List Byte)
  | bitFrame1
  | bitFrame0
  | terminator
  | addressHeader (addr : RegAddr)
  | csLow
  /-- The operand is the `next` of R109 (log 12). -/
  | csHigh (next : Closing)
  | mcuSoftReset
  deriving DecidableEq, Repr

/-- The formats of spec/opcode_table.json: which table the presented bits are read in. -/
inductive Format where
  | opSelect | flashOpcode | flashString | frame | header | csValue | mcuValue
  deriving DecidableEq, Repr

/-- The bits that select the instruction, in their format; bytes stand first byte first (log 7). -/
inductive SelectWord where
  /-- The 5-bit operation-select code (R60). -/
  | opSelect (code : BitVec 5)
  /-- The first byte of a command string sent to `REG_FLASH_DATA` (R55 to R58). -/
  | flashOpcode (b : Byte)
  /-- A whole command string (R55 to R58). -/
  | flashString (bytes : List Byte)
  /-- A BitFrame or the terminator (R50, R51). -/
  | frame (bytes : List Byte)
  /-- An AddressHeader (R53). -/
  | header (bytes : List Byte)
  /-- A value for `REG_FLASH_CS` (R59). -/
  | csValue (b : Byte)
  /-- A value for `REG_MCU_CTRL` (R59). -/
  | mcuValue (b : Byte)
  deriving DecidableEq, Repr

def SelectWord.format : SelectWord → Format
  | .opSelect _ => .opSelect
  | .flashOpcode _ => .flashOpcode
  | .flashString _ => .flashString
  | .frame _ => .frame
  | .header _ => .header
  | .csValue _ => .csValue
  | .mcuValue _ => .mcuValue

/-- What the host presents: the select bits, and the operands, which are "separate inputs, not bit
fields" (spec/opcode_table.json, D20). Operand inputs an instruction does not use are 0. -/
structure Command where
  select : SelectWord
  addr : BitVec 24 := 0
  data : List Byte := []
  ms : Nat := 0
  /-- `none` is the mark `Unreadable` (R135). -/
  image : Option Image := some []
  next : Closing := .toIdle
  deriving DecidableEq, Repr

/-- Why the decoder rejects a command, by name. -/
inductive DecodeError where
  /-- `data` longer than `MAX_DATA_LEN`, which the port cannot carry (R78, log 17). Safe. -/
  | dataTooLong
  /-- `program` takes a byte sequence, not the mark `Unreadable` (R132, R135, log 18). Safe. -/
  | programNeedsImage
  /-- An opcode outside the six the block emits (R61 c). Safe. -/
  | unknownFlashOpcode
  /-- A byte string that is no flash command string (R55 to R58). Safe. -/
  | unknownFlashString
  /-- Ten bytes that are no BitFrame and no terminator, or not ten (R50, R51). Safe. -/
  | badFrame
  /-- Not the five bytes of an AddressHeader (R53). Safe. -/
  | badHeader
  /-- A chip-select value that is neither low nor high (R59). Safe. -/
  | unknownCsValue
  /-- An MCU-control value that is not the soft-reset value (R59). Safe. -/
  | unknownMcuValue
  deriving DecidableEq, Repr

/-- The format of the opcode-table row an instruction stands for. -/
def Instr.format : Instr → Format
  | .encode _ _ | .writeReg _ _ | .writeEnable | .wakeUp | .eraseAll | .unlock
  | .writeFifoReg _ _ | .sectorErase _ | .programPage _ _ | .softReset | .settle _ | .activate
  | .program _ | .session _ | .openPort | .closePort | .reservedOp _ => .opSelect
  | .flashWriteEnable | .flashWakeUp | .flashEraseAll | .flashUnlock | .flashSectorErase
  | .flashPageProgram => .flashOpcode
  | .flashUnlockString | .flashSectorEraseString _ | .flashPageProgramPrefix _ _ => .flashString
  | .bitFrame1 | .bitFrame0 | .terminator => .frame
  | .addressHeader _ => .header
  | .csLow | .csHigh _ => .csValue
  | .mcuSoftReset => .mcuValue

end Sys2Proof
end

