-- ==== Sys2Proof/WellFormed.lean ====
section
/-! DEFINITION. Which instructions can be presented to the block. -/

namespace Sys2Proof

/-- An instruction the command port can carry: `data` within `MAX_DATA_LEN` (R78, R94), a reserved
code in 0x10 to 0x1F (R60, R61), a page-program string of at most 256 payload bytes (R58). Every
other operand is bounded by its type (R78: "the operand is 24 bits wide"). A `programPage` of more
than 256 bytes is well formed and is refused by its meaning (R116, R158 f). -/
def Instr.wf (p : Params) : Instr → Bool
  | .encode _ data | .writeReg _ data | .writeFifoReg _ data | .programPage _ data =>
    p.carries data.length
  | .reservedOp code => decide (16 ≤ code.toNat)
  | .flashPageProgramPrefix _ payload => decide (payload.length ≤ pageChunk)
  | .writeEnable | .wakeUp | .eraseAll | .unlock | .sectorErase _ | .softReset | .settle _
  | .activate | .program _ | .session _ | .openPort | .closePort
  | .flashWriteEnable | .flashWakeUp | .flashEraseAll | .flashUnlock | .flashSectorErase
  | .flashPageProgram | .flashUnlockString | .flashSectorEraseString _
  | .bitFrame1 | .bitFrame0 | .terminator | .addressHeader _ | .csLow | .csHigh _
  | .mcuSoftReset => true

end Sys2Proof
end

