-- ==== Sys2Proof/Decode.lean ====
section
/-! DEFINITION. The decoder, total on any command and rejecting by name, and the encoder, both from the
tables of 30_encoding.md and spec/opcode_table.json. -/

namespace Sys2Proof

/-! ## Decoding -/

/-- `data` goes through when the port carries its length (R78, log 17). -/
def withData (p : Params) (data : List Byte) (i : Instr) : Except DecodeError Instr :=
  if p.carries data.length then .ok i else .error .dataTooLong

/-- The operation-select codes (R60); 0x10 to 0x1F are reserved (R61). -/
def decodeOp (p : Params) (code : BitVec 5) (c : Command) : Except DecodeError Instr :=
  match code.toNat with
  | 0x00 => withData p c.data (.encode c.addr c.data)
  | 0x01 => withData p c.data (.writeReg c.addr c.data)
  | 0x02 => .ok .writeEnable
  | 0x03 => .ok .wakeUp
  | 0x04 => .ok .eraseAll
  | 0x05 => .ok .unlock
  | 0x06 => withData p c.data (.writeFifoReg c.addr c.data)
  | 0x07 => .ok (.sectorErase c.addr)
  | 0x08 => withData p c.data (.programPage c.addr c.data)
  | 0x09 => .ok .softReset
  | 0x0A => .ok (.settle c.ms)
  | 0x0B => .ok .activate
  | 0x0C => match c.image with
    | some image => .ok (.program image)
    | none => .error .programNeedsImage
  | 0x0D => .ok (.session c.image)
  | 0x0E => .ok .openPort
  | 0x0F => .ok .closePort
  | _ => .ok (.reservedOp code)

/-- The six flash opcodes (R3, R55 to R58); no other is ever emitted (R61 c). -/
def decodeFlashOpcode (b : Byte) : Except DecodeError Instr :=
  if b = fcWriteEnable then .ok .flashWriteEnable
  else if b = fcWakeUp then .ok .flashWakeUp
  else if b = fcEraseAll then .ok .flashEraseAll
  else if b = fcUnlock then .ok .flashUnlock
  else if b = fcSectorErase then .ok .flashSectorErase
  else if b = fcPageProgram then .ok .flashPageProgram
  else .error .unknownFlashOpcode

/-- A four-byte prefix with its payload: sector erase takes none (R57), page program 0 to 256
(R58). -/
def decodeAddressedString (op hi mid lo : Byte) (payload : List Byte) : Except DecodeError Instr :=
  if op = fcSectorErase ∧ payload = [] then .ok (.flashSectorEraseString (addrOfBytes hi mid lo))
  else if op = fcPageProgram ∧ payload.length ≤ pageChunk then
    .ok (.flashPageProgramPrefix (addrOfBytes hi mid lo) payload)
  else .error .unknownFlashString

/-- The flash command strings (R55 to R58). A single-opcode string is the opcode's own row (R55). -/
def decodeFlashString : List Byte → Except DecodeError Instr
  | [op] =>
    if op = fcWriteEnable then .ok .flashWriteEnable
    else if op = fcWakeUp then .ok .flashWakeUp
    else if op = fcEraseAll then .ok .flashEraseAll
    else .error .unknownFlashString
  | [op, x, y] =>
    if op = fcUnlock ∧ x = unlockPayload ∧ y = unlockPayload then .ok .flashUnlockString
    else .error .unknownFlashString
  | op :: hi :: mid :: lo :: payload => decodeAddressedString op hi mid lo payload
  | _ => .error .unknownFlashString

/-- BitFrames and the terminator, told apart by byte 9 (R50, R51, R79); the padding is not looked at,
as the receiver of R80 does (log 19). -/
def decodeFrame (bytes : List Byte) : Except DecodeError Instr :=
  if bytes = termFrame then .ok .terminator
  else if bytes.length = frameLen ∧ bytes.getLast? = some stopMark then
    if bytes.head? = some mark1 then .ok .bitFrame1
    else if bytes.head? = some mark0 then .ok .bitFrame0
    else .error .badFrame
  else .error .badFrame

/-- An AddressHeader (R53). -/
def decodeHeader : List Byte → Except DecodeError Instr
  | [sync, hi, mid, lo, trailer] =>
    if sync = syncByte ∧ trailer = hdrTrailer then .ok (.addressHeader (addrOfBytes hi mid lo))
    else .error .badHeader
  | _ => .error .badHeader

/-- A value for `REG_FLASH_CS` (R59). -/
def decodeCsValue (p : Params) (b : Byte) (next : Closing) : Except DecodeError Instr :=
  if b = csHighVal then .ok (.csHigh next)
  else if b = p.csLowVal then .ok .csLow
  else .error .unknownCsValue

/-- A value for `REG_MCU_CTRL` (R59). -/
def decodeMcuValue (b : Byte) : Except DecodeError Instr :=
  if b = mcuResetVal then .ok .mcuSoftReset else .error .unknownMcuValue

/-- The decoder: total, each rejection with a name of its own. -/
def decode (p : Params) (c : Command) : Except DecodeError Instr :=
  match c.select with
  | .opSelect code => decodeOp p code c
  | .flashOpcode b => decodeFlashOpcode b
  | .flashString bytes => decodeFlashString bytes
  | .frame bytes => decodeFrame bytes
  | .header bytes => decodeHeader bytes
  | .csValue b => decodeCsValue p b c.next
  | .mcuValue b => decodeMcuValue b

/-! ## Encoding -/

/-- The command string of a sector erase: `20 hi mid lo` (R57). -/
def sectorEraseString (a : FlashAddr) : List Byte :=
  [fcSectorErase, addrHi a, addrMid a, addrLo a]

/-- The command string of a page program: `02 hi mid lo` and the payload (R58). -/
def pageProgramString (a : FlashAddr) (payload : List Byte) : List Byte :=
  [fcPageProgram, addrHi a, addrMid a, addrLo a] ++ payload

/-- The encoder: what the host presents to have an instruction issued (30_encoding.md). -/
def encode (p : Params) : Instr → Command
  | .encode addr data => { select := .opSelect 0x00, addr := addr, data := data }
  | .writeReg addr data => { select := .opSelect 0x01, addr := addr, data := data }
  | .writeEnable => { select := .opSelect 0x02 }
  | .wakeUp => { select := .opSelect 0x03 }
  | .eraseAll => { select := .opSelect 0x04 }
  | .unlock => { select := .opSelect 0x05 }
  | .writeFifoReg addr data => { select := .opSelect 0x06, addr := addr, data := data }
  | .sectorErase addr => { select := .opSelect 0x07, addr := addr }
  | .programPage addr data => { select := .opSelect 0x08, addr := addr, data := data }
  | .softReset => { select := .opSelect 0x09 }
  | .settle ms => { select := .opSelect 0x0A, ms := ms }
  | .activate => { select := .opSelect 0x0B }
  | .program image => { select := .opSelect 0x0C, image := some image }
  | .session image => { select := .opSelect 0x0D, image := image }
  | .openPort => { select := .opSelect 0x0E }
  | .closePort => { select := .opSelect 0x0F }
  | .reservedOp code => { select := .opSelect code }
  | .flashWriteEnable => { select := .flashOpcode fcWriteEnable }
  | .flashWakeUp => { select := .flashOpcode fcWakeUp }
  | .flashEraseAll => { select := .flashOpcode fcEraseAll }
  | .flashUnlock => { select := .flashOpcode fcUnlock }
  | .flashSectorErase => { select := .flashOpcode fcSectorErase }
  | .flashPageProgram => { select := .flashOpcode fcPageProgram }
  | .flashUnlockString => { select := .flashString [fcUnlock, unlockPayload, unlockPayload] }
  | .flashSectorEraseString a => { select := .flashString (sectorEraseString a) }
  | .flashPageProgramPrefix a payload => { select := .flashString (pageProgramString a payload) }
  | .bitFrame1 => { select := .frame (bitFrame p true) }
  | .bitFrame0 => { select := .frame (bitFrame p false) }
  | .terminator => { select := .frame termFrame }
  | .addressHeader a => { select := .header (header a) }
  | .csLow => { select := .csValue p.csLowVal }
  | .csHigh next => { select := .csValue csHighVal, next := next }
  | .mcuSoftReset => { select := .mcuValue mcuResetVal }

/-! ## Words as spec/opcode_table.json numbers them -/

/-- The `n` bytes of a number, most significant byte first: the table writes its byte strings "first
byte first" and numbers them as one number (98_reader.md, log 9). -/
def bytesMsbFirst (n w : Nat) : List Byte :=
  match n with
  | 0 => []
  | k + 1 => bytesMsbFirst k (w / 256) ++ [BitVec.ofNat 8 w]

/-- The select bits of a table word. Eight-bit rows of different formats share values: a value below
0x20 is read as an operation-select code, any other as a flash opcode (log 8). -/
def tableSelect (nbits w : Nat) : SelectWord :=
  if nbits ≤ 8 then
    if w < 32 then .opSelect (BitVec.ofNat 5 w) else .flashOpcode (BitVec.ofNat 8 w)
  else if nbits = 40 then .header (bytesMsbFirst 5 w)
  else if nbits = 80 then .frame (bytesMsbFirst 10 w)
  else .flashString (bytesMsbFirst (nbits / 8) w)

/-- The command of a table word: every operand input is 0 (log 7). -/
def tableCommand (nbits w : Nat) : Command := { select := tableSelect nbits w }

/-- The instruction the decoder reads from a table word (none where it refuses). -/
def decodeTableWord (nbits w : Nat) : Option Instr :=
  (decode Config.givenParams (tableCommand nbits w)).toOption

end Sys2Proof
end

