-- ==== Sys2Proof/Machine/State.lean ====
section
/-! DEFINITION. The state of the machine as plain data: the record `st` of 10_state.md (R13 to R20, R25),
the parameters and the configuration record (R4, R5), and the model's own fields, which carry the
inputs of the block's steps and what the host got back (70_reset_and_hazards.md R187, R188). -/

namespace Sys2Proof.Machine

/-- `st.tstate` (R13): the controller's own picture of the target. -/
inductive TState where
  | idle | cmdAsserted | programming
  deriving DecidableEq, Repr

/-- `st.fifo_mode` (R14): the last mode written by `writeFifoRegister`. -/
inductive BusMode where
  | normal | fifo
  deriving DecidableEq, Repr

/-- The three failures of the block (R16, R150). -/
inductive Failure where
  /-- "serial device cannot be opened" (R151). -/
  | transportOpen
  /-- "a byte burst could not be transmitted" (R152). -/
  | transportWrite
  /-- "firmware file missing/unreadable" (R153). -/
  | imageRead
  deriving DecidableEq, Repr

/-- `st.transport` (R17). -/
inductive Transport where
  | closed | opened | finished
  deriving DecidableEq, Repr

/-- The level of a control line (R18). -/
inductive Level where
  | high | low
  deriving DecidableEq, Repr

/-- The events of `st.trace` (R19). -/
inductive Event where
  | opened
  | write (buf : List Byte)
  | writeFailed (buf : List Byte)
  | lines (a b : Level)
  | delay (ms : Nat)
  | closed
  deriving DecidableEq, Repr

/-- What the host gets back from an operation (R187 a, R188): `Ok`, a failure's name, or the bytes a
function of the encoder returns (log 14). -/
inductive Reply where
  | ok
  | failed (f : Failure)
  | bytes (b : List Byte)
  deriving DecidableEq, Repr

/-- What the host does (R188): it issues an operation, or resets with a configuration record. -/
inductive HostAction where
  | issue (c : Command)
  | reset (cfg : RunConfig)
  deriving DecidableEq, Repr

/-- The environment's choices still to come (R187 b, c), as plain data; where a list is used up, a
free value is drawn (log 1, log 2). -/
structure Env where
  opens : List OpenResult
  writes : List WriteResult
  ticks : List Tick
  /-- The least the monotonic clock can read now, in milliseconds (R98). -/
  clock : Nat
  /-- The index of the next free value. -/
  draws : Nat
  deriving DecidableEq, Repr

/-- The state. -/
structure State where
  /-- The parameters of the instance (R5). -/
  par : Params
  /-- The configuration record (R4). -/
  cfg : RunConfig
  tstate : TState
  fifoMode : BusMode
  /-- `st.ready` (R15). -/
  ready : Bool
  /-- `st.fault` (R16). -/
  fault : Option Failure
  transport : Transport
  lineA : Level
  lineB : Level
  trace : List Event
  cursor : Nat
  remaining : Nat
  /-- `st.busy` (R25). -/
  busy : Bool
  /-- The model's own: the environment's choices (log 1, log 2). -/
  env : Env
  /-- The model's own: what the host will do (log 7). -/
  host : List HostAction
  /-- The model's own: what the host got back (log 14). -/
  reply : Option Reply
  deriving DecidableEq, Repr

/-- Why the machine stops for ever. -/
inductive Fault where
  /-- Raised by `step` in a state that is busy while nothing is issued: an operation whose write
  never completes, or whose clock has stopped, is waited for without end (R182, R189; log 3). Safe:
  the spec's block does not go on either. -/
  | hung
  deriving DecidableEq, Repr

/-- Why the model gives an operation no meaning from a state (R158). A refusal sets no state. -/
inductive Refusal where
  /-- Raised by an arm of `exec` that has no meaning yet. Safe. -/
  | notModelled (mnemonic : String)
  /-- R158 (a), R155: issued while `st.fault` is not none. Raised by every operation. Safe. -/
  | failureLatched
  /-- R158 (a), R25: issued while `st.busy`. Raised by every operation. Safe. -/
  | operationInProgress
  /-- R158 (b): a transmitting operation, `setLines` or `close` while the transport is not open.
  Safe. -/
  | transportNotOpen
  /-- R158 (b): `open` or `session` while the transport is not closed. Safe. -/
  | transportNotClosed
  /-- R158 (c), R160: a FlashProtocol operation or `program` before activation. Safe. -/
  | notActivated
  /-- R158 (d), R105: the controller is not in the state the rule requires. Safe. -/
  | wrongControllerState
  /-- R106 to R109, R114: `st.fifo_mode` is not the normal mode the rule requires. Safe. -/
  | fifoModeOn
  /-- R158 (e), R118: `settle` shorter than `T_ERASE_ALL_MS`. Safe. -/
  | settleTooShort
  /-- R158 (f), R116: a page of more than 256 bytes. Safe. -/
  | pageTooLong
  /-- R158 (g), R132: an image of more than 2^24 bytes. Safe. -/
  | imageTooLong
  /-- R158 (h), R114: `writeFifoRegister` on the mode register. Safe. -/
  | fifoTargetsModeRegister
  /-- R158 (i), R61 (a): a reserved operation-select code. Safe. -/
  | reservedOperation
  /-- Raised by `step`: a reset in the middle of an operation, for which "a model gives it no move"
  (R188; log 20). Safe. -/
  | resetWhileBusy
  /-- Raised by `step`: the command decodes to nothing, for the decoder's reason. Safe. -/
  | badCommand (e : DecodeError)
  deriving DecidableEq, Repr

/-- The state right after a reset with a configuration record, by R26 and R170; the parameters belong
to the instance and the environment and the host are not the block's, so a reset leaves them. -/
def State.resetWith (par : Params) (cfg : RunConfig) (env : Env) (host : List HostAction) :
    State where
  par := par
  cfg := cfg
  tstate := .idle
  fifoMode := .normal
  ready := false
  fault := none
  transport := .closed
  lineA := .high
  lineB := .high
  trace := []
  cursor := 0
  remaining := 0
  busy := false
  env := env
  host := host
  reply := none

/-- An environment none of whose choices is fixed: each is a free value when it comes (log 1). -/
def Env.free : Env where
  opens := []
  writes := []
  ticks := []
  clock := 0
  draws := 0

/-- The machine right after reset (R26, R170), nothing issued, the environment free. -/
def State.reset : State :=
  State.resetWith Config.givenParams Config.givenRun Env.free []

end Sys2Proof.Machine
end

