-- ==== Sys2Proof/Machine/Ops.lean ====
section
/-! DEFINITION. The shared operations: how an operation of several statements goes on, fails or is
refused; the environment's choices; the transport, the lines, the delay, the clock; the register
write; and taking a failure, the block's one kind of exception (R154). There is no return from it
(R155): only the host's reset, `reset`, leaves it. -/

namespace Sys2Proof.Machine

/-! ## Sequencing -/

/-- Where an operation stands after a statement: `running` is false when it has ended there, by a
failure (R154) or by never completing (R182). -/
structure Progress where
  running : Bool
  state : State
  deriving DecidableEq, Repr

/-- The outcome of a statement: refused by a `require` (R158), or the progress made. -/
abbrev Flow := Except Refusal Progress

/-- The operation goes on from `s`. -/
def Flow.go (s : State) : Flow := .ok ⟨true, s⟩

/-- The operation stands still at `s`: nothing after it runs (R93). -/
def Flow.halt (s : State) : Flow := .ok ⟨false, s⟩

/-- One statement after another, in program order (R41, R141). A statement that is refused refuses the
whole operation, and what earlier statements did is dropped with it: R158 lets a refusal set no state
and append nothing, and does not speak of one inside a composite operation (DESIGN CHOICE, log 27). -/
def Flow.andThen (f : Flow) (g : State → Flow) : Flow :=
  match f with
  | .error r => .error r
  | .ok p => if p.running then g p.state else .ok p

/-- `require P` (00_scope.md section 4, R158). -/
def require (c : Bool) (r : Refusal) (s : State) : Flow :=
  if c then Flow.go s else .error r

/-! ## The trace and taking a failure -/

/-- `emit(e)`: append an event to the trace (R19). -/
def emit (e : Event) (s : State) : State :=
  { s with trace := s.trace ++ [e] }

/-- `raise F` (R154): the failure is latched, the operation and all that called it end, the host is
told; every other state variable keeps its value. -/
def raise (f : Failure) (s : State) : State :=
  { s with fault := some f, busy := false, reply := some (.failed f) }

/-! ## The environment's choices -/

/-- The outcome of the next `open` (R90, log 1). -/
def Env.nextOpen (e : Env) : OpenResult × Env :=
  match e.opens with
  | r :: rest => (r, { e with opens := rest })
  | [] => (Config.freeOpen e.draws, { e with draws := e.draws + 1 })

/-- The outcome of the next transport write (R91, log 1). -/
def Env.nextWrite (e : Env) : WriteResult × Env :=
  match e.writes with
  | r :: rest => (r, { e with writes := rest })
  | [] => (Config.freeWrite e.draws, { e with draws := e.draws + 1 })

/-- How far the clock moves at a tick; a stopped clock moves by nothing (log 3). -/
def tickMs : Tick → Nat
  | .advance ms => ms
  | .stopped => 0

/-- `now()` (R98): the clock moves on by an amount the environment chooses, and is read; the reading
is the new `clock`. It is the reading that sets the flood's deadline: R182 speaks of a clock that stops
"during the flood", and one that does not move before this first reading is read as it stands and
may still go on (DESIGN CHOICE, log 3). -/
def Env.now (e : Env) : Env :=
  match e.ticks with
  | t :: rest => { e with ticks := rest, clock := e.clock + tickMs t }
  | [] => { e with clock := e.clock + Config.freeAdvance e.draws, draws := e.draws + 1 }

/-! ## The transport (41_transport_and_register_write.md) -/

/-- What `open()` does to an environment that answers (R90, R151). -/
def opened (r : OpenResult) (s : State) : State :=
  match r with
  | .opened => emit .opened { s with transport := .opened }
  | .refused => raise .transportOpen s

/-- `open()` (R90): the device `cfg.portPath` at `cfg.baudRate` (R99). It ends the operation when the
device cannot be opened. -/
def openTransport (s : State) : Flow :=
  if s.transport = .closed then
    if s.fault = none then
      .ok ⟨decide ((s.env.nextOpen).1 = .opened),
        opened (s.env.nextOpen).1 { s with env := (s.env.nextOpen).2 }⟩
    else .error .failureLatched
  else .error .transportNotClosed

/-- What a transport write does when its outcome is known (R91, R152, R182): a write that never
completes leaves everything as it was, for ever. -/
def written (r : WriteResult) (buf : List Byte) (s : State) : State :=
  match r with
  | .ok => emit (.write buf) s
  | .fails => raise .transportWrite (emit (.writeFailed buf) s)
  | .never => s

/-- `transport.write(buf)` (R91). -/
def transportWrite (buf : List Byte) (s : State) : Flow :=
  if s.transport = .opened then
    if s.fault = none then
      .ok ⟨decide ((s.env.nextWrite).1 = .ok),
        written (s.env.nextWrite).1 buf { s with env := (s.env.nextWrite).2 }⟩
    else .error .failureLatched
  else .error .transportNotOpen

/-- `transport.setLines(a, b)` (R96). -/
def setLines (a b : Level) (s : State) : Flow :=
  if s.transport = .opened then
    if s.fault = none then
      Flow.go (emit (.lines a b) { s with lineA := a, lineB := b })
    else .error .failureLatched
  else .error .transportNotOpen

/-- `close()` (R97). -/
def closeTransport (s : State) : Flow :=
  if s.transport = .opened then
    if s.fault = none then
      Flow.go (emit .closed { s with transport := .finished })
    else .error .failureLatched
  else .error .transportNotOpen

/-- `delay(ms)` (R95): at least `ms` milliseconds pass; how many more shows at the next reading of the
clock (log 2). -/
def delay (ms : Nat) (s : State) : Flow :=
  if s.fault = none then
    Flow.go (emit (.delay ms) { s with env := { s.env with clock := s.env.clock + ms } })
  else .error .failureLatched

/-- `writeRegister(addr, data)` (R94): one packet, one transport write. -/
def writeRegister (addr : RegAddr) (data : List Byte) (s : State) : Flow :=
  transportWrite (encodePacket s.par addr data) s

/-! ## Issuing an operation and ending it -/

/-- The state in which the statements of an issued operation run (R25, R188). -/
def issued (s : State) : State := { s with busy := true, reply := none }

/-- The state in which an operation that ran to its end leaves the block, the host being given `r`
(R189). -/
def completed (r : Reply) (s : State) : State := { s with busy := false, reply := some r }

/-- Whether an operation can be issued at all (R158 a). -/
def enter (s : State) : Flow :=
  if s.fault = none then
    if s.busy = false then Flow.go (issued s) else .error .operationInProgress
  else .error .failureLatched

/-- The end of an operation: it completed, or stands where it stopped (R189). -/
def conclude (r : Reply) (f : Flow) : Host.Outcome State Fault Refusal :=
  match f with
  | .error e => .refused e
  | .ok p => .next (if p.running then completed r p.state else p.state)

/-- An operation from issue to end; `body` is its statements (R188, R189). -/
def operation (body : State → Flow) (s : State) : Host.Outcome State Fault Refusal :=
  conclude .ok ((enter s).andThen body)

/-- A function of the encoder: it returns bytes to the host and does nothing else (R70 to R74). -/
def function (value : State → List Byte) (s : State) : Host.Outcome State Fault Refusal :=
  conclude (.bytes (value s)) (enter s)

/-! ## The host's moves -/

/-- Reset by the host (R170, R171, R188): every state variable takes its reset value; nothing is
transmitted; the parameters, the environment and the host go on (log 20). The record is the host's,
but for the baud rate, which is "not changeable" (R4, R26; log 5). -/
def reset (cfg : RunConfig) (rest : List HostAction) (s : State) : State :=
  State.resetWith s.par { cfg with baudRate := Sys2Proof.baudRate } s.env rest

/-- The command the host presents next, if it presents one. -/
def nextCommand (s : State) : Option Command :=
  match s.host with
  | .issue c :: _ => some c
  | _ => none

end Sys2Proof.Machine
end

