-- ==== Sys2Proof/Machine/Encoder.lean ====
section
/-! DEFINITION. `ENCODE` and the formats of the encoder: functions whose value the host gets back
(40_bitstream_encoder.md). No state variable is read or written by them but by the issue itself
(R158 a; log 13, log 14). -/

namespace Sys2Proof.Machine

/-- `ENCODE` (R74): the PacketBuffer is returned, nothing is transmitted. -/
def execEncode (addr : RegAddr) (data : List Byte) (s : State) :
    Host.Outcome State Fault Refusal :=
  function (fun s => encodePacket s.par addr data) s

/-- `BITFRAME_1` (R50, R70). -/
def execBitFrame1 (s : State) : Host.Outcome State Fault Refusal :=
  function (fun s => bitFrame s.par true) s

/-- `BITFRAME_0` (R50, R70). -/
def execBitFrame0 (s : State) : Host.Outcome State Fault Refusal :=
  function (fun s => bitFrame s.par false) s

/-- `TERMINATOR` (R51, R71). -/
def execTerminator (s : State) : Host.Outcome State Fault Refusal :=
  function (fun _ => termFrame) s

/-- `ADDRESS_HEADER` (R53, R73). -/
def execAddressHeader (addr : RegAddr) (s : State) : Host.Outcome State Fault Refusal :=
  function (fun _ => header addr) s

end Sys2Proof.Machine
end

