-- ==== Sys2Proof/Machine/Flags.lean ====
section
/-! DEFINITION. The status a rule tests. The block has no condition codes and no arithmetic flags (R12);
what it tests is the failure latch (R16), the activation gate (R15, R160), the controller state
(R13, R105) and the bus mode (R14). -/

namespace Sys2Proof.Machine

/-- The activation gate of a host-issued FlashProtocol operation (R160, R158 c). -/
def requireReady (s : State) : Flow := require s.ready .notActivated s

/-- The controller must be in state `t` (R105, R158 d). -/
def requireTState (t : TState) (s : State) : Flow :=
  require (decide (s.tstate = t)) .wrongControllerState s

/-- The bus must be in normal mode (R106 to R109, R114). -/
def requireNormalMode (s : State) : Flow :=
  require (decide (s.fifoMode = .normal)) .fifoModeOn s

/-- The transport must be open (R158 b). -/
def requireOpen (s : State) : Flow :=
  require (decide (s.transport = .opened)) .transportNotOpen s

/-- The transport must be closed (R158 b). -/
def requireClosed (s : State) : Flow :=
  require (decide (s.transport = .closed)) .transportNotClosed s

/-- The code of `st.fault` (R150): 0 is "none", and 0 at the end of a session is the host's normal exit
(R166). -/
def failureCode : Option Failure → Nat
  | none => 0
  | some .transportOpen => 1
  | some .transportWrite => 2
  | some .imageRead => 3

end Sys2Proof.Machine
end

