-- ==== Sys2Proof/Machine/Operands.lean ====
section
/-! DEFINITION. The operand forms: flash addresses in three bytes, the chunks of an image, the state a
closing step leads to. All arithmetic is on natural numbers and never wraps (R140). -/

namespace Sys2Proof.Machine

/-- The controller state `next` names (R108, R109). -/
def closingState : Closing → TState
  | .toIdle => .idle
  | .toProgramming => .programming

/-- The flash address of a cursor (R140: below 2^24 it fits the three address bytes exactly). -/
def flashAddrOf (cursor : Nat) : FlashAddr := BitVec.ofNat 24 cursor

/-- "address `a` starts a new sector iff `a & 0xFFF == 0`" (R32, R132, R136). -/
def startsSector (cursor : Nat) : Bool := decide (cursor &&& 0xFFF = 0)

/-- `chunk = min(256, remaining)` (R132). -/
def chunkLen (remaining : Nat) : Nat := min pageChunk remaining

/-- `image[lo .. lo+len]` (00_scope.md section 4, R33). -/
def imageSlice (image : Image) (lo len : Nat) : List Byte := (image.drop lo).take len

end Sys2Proof.Machine
end

