-- ==== Sys2Proof/Machine/Flash.lean ====
section
/-! DEFINITION. The FlashProtocol controller (42_flash_protocol.md): its internal steps, the bodies of its
operations, and the host-issued operations. -/

namespace Sys2Proof.Machine

/-! ## Internal steps -/

/-- The controller moves when the step's write has completed (R105). -/
def moveTo (t : TState) (s : State) : Flow := Flow.go { s with tstate := t }

/-- `csLow()` (R106). -/
def csLowStep (s : State) : Flow :=
  ((requireTState .idle s).andThen requireNormalMode).andThen fun s =>
  (writeRegister s.par.regFlashCs [s.par.csLowVal] s).andThen (moveTo .cmdAsserted)

/-- `sendByte(b)` (R107). -/
def sendByte (b : Byte) (s : State) : Flow :=
  ((requireTState .cmdAsserted s).andThen requireNormalMode).andThen fun s =>
  writeRegister s.par.regFlashData [b] s

/-- `sendLastByte(b, next)` (R108): chip-select high is folded into the burst. -/
def sendLastByte (b : Byte) (next : Closing) (s : State) : Flow :=
  ((requireTState .cmdAsserted s).andThen requireNormalMode).andThen fun s =>
  (writeRegister s.par.regFlashData [b, csHighVal] s).andThen (moveTo (closingState next))

/-- `csHigh(next)` (R109). -/
def csHighStep (next : Closing) (s : State) : Flow :=
  ((requireTState .cmdAsserted s).andThen requireNormalMode).andThen fun s =>
  (writeRegister s.par.regFlashCs [csHighVal] s).andThen (moveTo (closingState next))

/-- A command of one opcode (R110 to R112). -/
def singleOpcode (op : Byte) (next : Closing) (s : State) : Flow :=
  (csLowStep s).andThen (sendLastByte op next)

/-- The last three bytes of a sector erase's string and the closing of the bracket (R115). -/
def sendAddress (a : FlashAddr) (next : Closing) (s : State) : Flow :=
  ((sendByte (addrHi a) s).andThen (sendByte (addrMid a))).andThen (sendLastByte (addrLo a) next)

/-! ## Bodies -/

/-- `writeEnable` body (R110). -/
def writeEnableBody (s : State) : Flow := singleOpcode fcWriteEnable .toIdle s

/-- `wakeUp` body (R111). -/
def wakeUpBody (s : State) : Flow := singleOpcode fcWakeUp .toIdle s

/-- `eraseAll` body (R112). -/
def eraseAllBody (s : State) : Flow := singleOpcode fcEraseAll .toProgramming s

/-- `unlock` after chip-select low (R113, R56). -/
def unlockString (s : State) : Flow :=
  ((sendByte fcUnlock s).andThen (sendByte unlockPayload)).andThen
    (sendLastByte unlockPayload .toIdle)

/-- `unlock` body (R113). -/
def unlockBody (s : State) : Flow := (csLowStep s).andThen unlockString

/-- A write of the mode register; `st.fifo_mode` follows when the write has completed (R114). -/
def setBusMode (m : BusMode) (s : State) : Flow :=
  (writeRegister s.par.regExtMode
    [match m with | .fifo => s.par.extModeFifoVal | .normal => s.par.extModeNormalVal] s).andThen
  fun s => Flow.go { s with fifoMode := m }

/-- `writeFifoRegister` body (R114). -/
def writeFifoBody (addr : RegAddr) (data : List Byte) (s : State) : Flow :=
  (((requireNormalMode s).andThen (setBusMode .fifo)).andThen (writeRegister addr data)).andThen
    (setBusMode .normal)

/-- A sector erase after the write-enable and chip-select low (R115, R57). -/
def sectorEraseSteps (a : FlashAddr) (s : State) : Flow :=
  (sendByte fcSectorErase s).andThen (sendAddress a .toProgramming)

/-- `sectorErase` body (R115). -/
def sectorEraseBody (a : FlashAddr) (s : State) : Flow :=
  ((((writeEnableBody s).andThen csLowStep).andThen (sectorEraseSteps a)).andThen
    (delay tSectorEraseMs)).andThen (moveTo .idle)

/-- The FIFO transfer of a page program's string (R116, R58). -/
def pageTransfer (a : FlashAddr) (data : List Byte) (s : State) : Flow :=
  writeFifoBody s.par.regFlashData (pageProgramString a data) s

/-- `programPage` body (R116). -/
def programPageBody (a : FlashAddr) (data : List Byte) (s : State) : Flow :=
  ((((((require (decide (data.length ≤ pageChunk)) .pageTooLong s).andThen
    writeEnableBody).andThen csLowStep).andThen (pageTransfer a data)).andThen
    (csHighStep .toProgramming)).andThen (delay tPageProgramMs)).andThen (moveTo .idle)

/-- `softReset` body (R117): the target restarts, so activation no longer holds. -/
def softResetBody (s : State) : Flow :=
  (requireTState .idle s).andThen fun s =>
  (writeRegister s.par.regMcuCtrl [mcuResetVal] s).andThen fun s =>
  Flow.go { s with ready := false }

/-- `settle(ms)` (R118). Its bound is that of the erase-all, the only operation that leaves
`Programming`; it is the same when a format row left it (DESIGN CHOICE, log 28). -/
def settleBody (ms : Nat) (s : State) : Flow :=
  (((requireTState .programming s).andThen
    (fun s => require (decide (s.par.eraseAllMs ≤ ms)) .settleTooShort s)).andThen
    (delay ms)).andThen (moveTo .idle)

/-! ## Host-issued operations: the gate, then the body (R160, R105) -/

/-- What everything of the FlashProtocol asks for when the host issues it, `softReset` and `settle`
apart: activation (R160, R158 c); the transport is looked at first (log 15). -/
def activeGate (s : State) : Flow := (requireOpen s).andThen requireReady

/-- The gate of a host-issued FlashProtocol operation: activated, and the controller idle (R105). -/
def flashGate (s : State) : Flow := (activeGate s).andThen (requireTState .idle)

/-- `WRITE_ENABLE` (R110). -/
def execWriteEnable (s : State) : Host.Outcome State Fault Refusal :=
  operation (fun s => (flashGate s).andThen writeEnableBody) s

/-- `WAKE_UP` (R111). -/
def execWakeUp (s : State) : Host.Outcome State Fault Refusal :=
  operation (fun s => (flashGate s).andThen wakeUpBody) s

/-- `ERASE_ALL` (R112). -/
def execEraseAll (s : State) : Host.Outcome State Fault Refusal :=
  operation (fun s => (flashGate s).andThen eraseAllBody) s

/-- `UNLOCK` (R113). -/
def execUnlock (s : State) : Host.Outcome State Fault Refusal :=
  operation (fun s => (flashGate s).andThen unlockBody) s

/-- `WRITE_FIFO_REG` (R114): the host-issued form requires `Idle` and a register other than the mode
register (R158 h). -/
def execWriteFifoReg (addr : RegAddr) (data : List Byte) (s : State) :
    Host.Outcome State Fault Refusal :=
  operation (fun s =>
    ((flashGate s).andThen fun s =>
      require (decide (addr ≠ s.par.regExtMode)) .fifoTargetsModeRegister s).andThen
    (writeFifoBody addr data)) s

/-- `SECTOR_ERASE` (R115). -/
def execSectorErase (a : FlashAddr) (s : State) : Host.Outcome State Fault Refusal :=
  operation (fun s => (flashGate s).andThen (sectorEraseBody a)) s

/-- `PROGRAM_PAGE` (R116). -/
def execProgramPage (a : FlashAddr) (data : List Byte) (s : State) :
    Host.Outcome State Fault Refusal :=
  operation (fun s => (flashGate s).andThen (programPageBody a data)) s

/-- `SOFT_RESET` (R117): no activation required. -/
def execSoftReset (s : State) : Host.Outcome State Fault Refusal :=
  operation (fun s => (requireOpen s).andThen softResetBody) s

/-- `SETTLE` (R118): neither activation nor the transport is required. -/
def execSettle (ms : Nat) (s : State) : Host.Outcome State Fault Refusal :=
  operation (settleBody ms) s

end Sys2Proof.Machine
end

