-- ==== Sys2Proof/Machine/FlashSteps.lean ====
section
/-! DEFINITION. The rows of the flash formats: the internal step of the FlashProtocol controller that puts
each out (30_encoding.md R55 to R59, 42_flash_protocol.md R106 to R109; log 10). Issued by the host they
have the activation gate, since R160 lists what may be issued before activation and they are not on
it; the value of a soft reset has none, as the operation it belongs to. -/

namespace Sys2Proof.Machine

/-- `FLASH_WRITE_ENABLE` (R55): the only byte of its string, so its last. -/
def execFlashWriteEnable (s : State) : Host.Outcome State Fault Refusal :=
  operation (fun s => (activeGate s).andThen (sendLastByte fcWriteEnable .toIdle)) s

/-- `FLASH_WAKE_UP` (R55). -/
def execFlashWakeUp (s : State) : Host.Outcome State Fault Refusal :=
  operation (fun s => (activeGate s).andThen (sendLastByte fcWakeUp .toIdle)) s

/-- `FLASH_ERASE_ALL` (R55, R112). -/
def execFlashEraseAll (s : State) : Host.Outcome State Fault Refusal :=
  operation (fun s => (activeGate s).andThen (sendLastByte fcEraseAll .toProgramming)) s

/-- `FLASH_UNLOCK` (R56): the first byte of its string. -/
def execFlashUnlock (s : State) : Host.Outcome State Fault Refusal :=
  operation (fun s => (activeGate s).andThen (sendByte fcUnlock)) s

/-- `FLASH_SECTOR_ERASE` (R57): the first byte of its string. -/
def execFlashSectorErase (s : State) : Host.Outcome State Fault Refusal :=
  operation (fun s => (activeGate s).andThen (sendByte fcSectorErase)) s

/-- `FLASH_PAGE_PROGRAM` (R58): the first byte of its string, sent alone (log 11). -/
def execFlashPageProgram (s : State) : Host.Outcome State Fault Refusal :=
  operation (fun s => (activeGate s).andThen (sendByte fcPageProgram)) s

/-- `FLASH_UNLOCK_STRING` (R56, R113). -/
def execFlashUnlockString (s : State) : Host.Outcome State Fault Refusal :=
  operation (fun s => (activeGate s).andThen unlockString) s

/-- `FLASH_SECTOR_ERASE_STRING` (R57, R115). It leaves `Programming`; the 300 ms of R115 belong to the
operation, and the wait after the string by itself is the host's `settle`, whose only bound is
`T_ERASE_ALL_MS` (DESIGN CHOICE, log 28). -/
def execFlashSectorEraseString (a : FlashAddr) (s : State) : Host.Outcome State Fault Refusal :=
  operation (fun s => (activeGate s).andThen (sectorEraseSteps a)) s

/-- `FLASH_PAGE_PROGRAM_PREFIX` with its payload (R58, R116): one FIFO transfer in an open bracket. -/
def execFlashPageProgramPrefix (a : FlashAddr) (payload : List Byte) (s : State) :
    Host.Outcome State Fault Refusal :=
  operation (fun s =>
    (((activeGate s).andThen (requireTState .cmdAsserted)).andThen fun s =>
      require (decide (payload.length ≤ pageChunk)) .pageTooLong s).andThen
    (pageTransfer a payload)) s

/-- `CS_LOW` (R59, R106). -/
def execCsLow (s : State) : Host.Outcome State Fault Refusal :=
  operation (fun s => (activeGate s).andThen csLowStep) s

/-- `CS_HIGH` (R59, R109). It waits for nothing: after FLASH_PAGE_PROGRAM_PREFIX it can reach `Idle`
without the 10 ms of R116, which belong to the operation (DESIGN CHOICE, log 28). -/
def execCsHigh (next : Closing) (s : State) : Host.Outcome State Fault Refusal :=
  operation (fun s => (activeGate s).andThen (csHighStep next)) s

/-- `MCU_SOFT_RESET` (R59, R117): the register write of a soft reset; no activation required (R160). -/
def execMcuSoftReset (s : State) : Host.Outcome State Fault Refusal :=
  operation (fun s => (requireOpen s).andThen softResetBody) s

end Sys2Proof.Machine
end

