-- ==== Sys2Proof/Machine/Sequencers.lean ====
section
/-! DEFINITION. The ActivationSequencer, the ProgramSequencer and the whole session (43_sequencers.md). -/

namespace Sys2Proof.Machine

/-! ## Activation -/

/-- The CPU-stop write (R130, R131). -/
def cpuStop (s : State) : Flow := writeRegister s.par.regCpuStop [s.par.cpuStopVal] s

/-- `n` CPU-stop writes with no pause (R131: "tight loop"). -/
def cpuStops : Nat → State → Flow
  | 0, s => Flow.go s
  | n + 1, s => (cpuStop s).andThen (cpuStops n)

/-- The rest of a flood whose clock readings nothing fixes: a free number of writes, none when the
deadline has been reached, and then a reading at or past the deadline (R131, U13; log 2). -/
def floodFree (deadline : Nat) (s : State) : Flow :=
  (cpuStops (if s.env.clock < deadline then Config.freeFlood s.env.draws else 0)
    { s with env := { s.env with draws := s.env.draws + 1 } }).andThen fun s =>
  Flow.go { s with env :=
    { s.env with
      clock := max s.env.clock deadline + Config.freeAdvance s.env.draws
      draws := s.env.draws + 1 } }

/-- The loop of the flood (R131): read the clock, and before the deadline send one more CPU-stop
write. A clock that has stopped before the deadline never lets it end (R182; log 3). -/
def floodLoop (deadline : Nat) : List Tick → State → Flow
  | [], s => floodFree deadline { s with env := { s.env with ticks := [] } }
  | t :: ts, s =>
    let now := s.env.clock + tickMs t
    let s := { s with env := { s.env with ticks := ts, clock := now } }
    if now < deadline then
      if t = .stopped then Flow.halt s
      else (cpuStop s).andThen (floodLoop deadline ts)
    else Flow.go s

/-- `flood(dur)` (R131): `deadline = now() + dur`, then the loop. -/
def flood (dur : Nat) (s : State) : Flow :=
  let e := s.env.now
  floodLoop (e.clock + dur) e.ticks { s with env := e }

/-- `activate()` step 1: both control lines low for the reset pulse (R130). -/
def resetPulse (s : State) : Flow :=
  ((setLines .low .low s).andThen (delay tResetPulseMs)).andThen (setLines .high .high)

/-- `activate()` steps 1 to 6 (R130). -/
def activateBody (s : State) : Flow :=
  ((((((((requireOpen s).andThen (requireTState .idle)).andThen
    resetPulse).andThen
    softResetBody).andThen
    (fun s => flood s.cfg.activationDurationMs s)).andThen
    (fun s => writeRegister s.par.regSpeed [s.par.speedVal] s)).andThen
    cpuStop).andThen
    wakeUpBody).andThen
    fun s => Flow.go { s with ready := true }

/-- `ACTIVATE` (R130). -/
def execActivate (s : State) : Host.Outcome State Fault Refusal :=
  operation activateBody s

/-! ## Programming -/

/-- The erase at a sector's first address (R132, R136). -/
def eraseIfSectorStart (s : State) : Flow :=
  if startsSector s.cursor then sectorEraseBody (flashAddrOf s.cursor) s else Flow.go s

/-- The chunk at the cursor (R132). -/
def programChunk (image : Image) (s : State) : Flow :=
  programPageBody (flashAddrOf s.cursor) (imageSlice image s.cursor (chunkLen s.remaining)) s

/-- `st.cursor` and `st.remaining` move on by the chunk just written (R132). -/
def advanceCursor (s : State) : Flow :=
  Flow.go { s with
    cursor := s.cursor + chunkLen s.remaining
    remaining := s.remaining - chunkLen s.remaining }

/-- The programming loop (R132); the number bounds its passes, each of which writes at least one
byte, so the length of the image is enough (R141). -/
def programLoop (image : Image) : Nat → State → Flow
  | 0, s => Flow.go s
  | n + 1, s =>
    if s.remaining = 0 then Flow.go s
    else (((eraseIfSectorStart s).andThen (programChunk image)).andThen advanceCursor).andThen
      (programLoop image n)

/-- `program(image)` after its `require` (R132). -/
def programBody (image : Image) (s : State) : Flow :=
  (programLoop image image.length
    { s with cursor := 0, remaining := image.length }).andThen softResetBody

/-- `program(image)` with its `require` (R132). -/
def programOp (image : Image) (s : State) : Flow :=
  ((flashGate s).andThen fun s =>
    require (decide (image.length ≤ imageLimit)) .imageTooLong s).andThen (programBody image)

/-- `PROGRAM` (R132). -/
def execProgram (image : Image) (s : State) : Host.Outcome State Fault Refusal :=
  operation (programOp image) s

/-! ## The whole run -/

/-- The statements of `session` once the image has been read (R135). -/
def sessionBody (image : Image) (s : State) : Flow :=
  ((((((openTransport s).andThen
    activateBody).andThen
    unlockBody).andThen
    eraseAllBody).andThen
    (fun s => settleBody s.par.eraseAllMs s)).andThen
    (programOp image)).andThen
    closeTransport

/-- `session(image)` (R135): an unreadable image fails before `open()` (R153, R156). -/
def sessionOp (image : Option Image) (s : State) : Flow :=
  (requireClosed s).andThen fun s =>
  match image with
  | none => Flow.halt (raise .imageRead s)
  | some image => sessionBody image s

/-- `SESSION` (R135). -/
def execSession (image : Option Image) (s : State) : Host.Outcome State Fault Refusal :=
  operation (sessionOp image) s

end Sys2Proof.Machine
end

