-- ==== Sys2Proof/Machine/Serial.lean ====
section
/-! DEFINITION. `OPEN`, `CLOSE`, `WRITE_REG` (41_transport_and_register_write.md) and the reserved codes
(30_encoding.md R61). -/

namespace Sys2Proof.Machine

/-- `OPEN` (R90). -/
def execOpenPort (s : State) : Host.Outcome State Fault Refusal :=
  operation openTransport s

/-- `CLOSE` (R97). -/
def execClosePort (s : State) : Host.Outcome State Fault Refusal :=
  operation closeTransport s

/-- `WRITE_REG` (R94): neither activation nor a controller state is required; `st.tstate`,
`st.fifo_mode` and `st.ready` do not follow raw writes (R94, R178, U11). -/
def execWriteReg (addr : RegAddr) (data : List Byte) (s : State) :
    Host.Outcome State Fault Refusal :=
  operation (writeRegister addr data) s

/-- `RESERVED_OP` (R61 a, R158 i): "the model refuses them (no meaning, no step)". -/
def execReservedOp (_code : BitVec 5) (_s : State) : Host.Outcome State Fault Refusal :=
  .refused .reservedOperation

end Sys2Proof.Machine
end

