-- ==== Sys2Proof/Machine/Dispatch.lean ====
section
/-! DEFINITION. One arm per instruction: its meaning. -/

namespace Sys2Proof.Machine

def exec (i : Instr) (s : State) : Host.Outcome State Fault Refusal :=
  match i with
  | .encode addr data => Sys2Proof.Machine.execEncode addr data s
  | .writeReg addr data => Sys2Proof.Machine.execWriteReg addr data s
  | .writeEnable => Sys2Proof.Machine.execWriteEnable s
  | .wakeUp => Sys2Proof.Machine.execWakeUp s
  | .eraseAll => Sys2Proof.Machine.execEraseAll s
  | .unlock => Sys2Proof.Machine.execUnlock s
  | .writeFifoReg addr data => Sys2Proof.Machine.execWriteFifoReg addr data s
  | .sectorErase addr => Sys2Proof.Machine.execSectorErase addr s
  | .programPage addr data => Sys2Proof.Machine.execProgramPage addr data s
  | .softReset => Sys2Proof.Machine.execSoftReset s
  | .settle ms => Sys2Proof.Machine.execSettle ms s
  | .activate => Sys2Proof.Machine.execActivate s
  | .program image => Sys2Proof.Machine.execProgram image s
  | .session image => Sys2Proof.Machine.execSession image s
  | .openPort => Sys2Proof.Machine.execOpenPort s
  | .closePort => Sys2Proof.Machine.execClosePort s
  | .reservedOp code => Sys2Proof.Machine.execReservedOp code s
  | .flashWriteEnable => Sys2Proof.Machine.execFlashWriteEnable s
  | .flashWakeUp => Sys2Proof.Machine.execFlashWakeUp s
  | .flashEraseAll => Sys2Proof.Machine.execFlashEraseAll s
  | .flashUnlock => Sys2Proof.Machine.execFlashUnlock s
  | .flashSectorErase => Sys2Proof.Machine.execFlashSectorErase s
  | .flashPageProgram => Sys2Proof.Machine.execFlashPageProgram s
  | .flashUnlockString => Sys2Proof.Machine.execFlashUnlockString s
  | .flashSectorEraseString addr => Sys2Proof.Machine.execFlashSectorEraseString addr s
  | .flashPageProgramPrefix addr payload => Sys2Proof.Machine.execFlashPageProgramPrefix addr payload s
  | .bitFrame1 => Sys2Proof.Machine.execBitFrame1 s
  | .bitFrame0 => Sys2Proof.Machine.execBitFrame0 s
  | .terminator => Sys2Proof.Machine.execTerminator s
  | .addressHeader addr => Sys2Proof.Machine.execAddressHeader addr s
  | .csLow => Sys2Proof.Machine.execCsLow s
  | .csHigh next => Sys2Proof.Machine.execCsHigh next s
  | .mcuSoftReset => Sys2Proof.Machine.execMcuSoftReset s

end Sys2Proof.Machine
end

