-- ==== Sys2Proof/Machine/Step.lean ====
section
/-! DEFINITION. One step: the host's next action (R188). There is no program counter and no instruction
memory (R11): the host issues operations, and the model holds what it will issue as data (log 7). -/

namespace Sys2Proof.Machine

/-- One step. With nothing to do the block waits for the host (R170); a block that is still busy then
is hung (R182). An issued command is decoded and run to its end; a reset takes effect between
operations (R188). -/
def step (s : State) : Host.Outcome State Fault Refusal :=
  match s.host with
  | [] => if s.busy then .fault .hung else .next s
  | .reset cfg :: rest =>
    if s.busy then .refused .resetWhileBusy else .next (reset cfg rest s)
  | .issue c :: rest =>
    match decode s.par c with
    | .error e => .refused (.badCommand e)
    | .ok i => exec i { s with host := rest }

/-- `s` with the instruction of a table word as the next thing the host issues (log 7): the next
step fetches and runs exactly it. -/
def State.withFetchWord (s : State) (nbits w : Nat) : State :=
  { s with host := .issue (tableCommand nbits w) :: s.host }

end Sys2Proof.Machine
end

