-- ==== Sys2Proof/Machine/Receiver.lean ====
section
/-! DEFINITION. The reference receiver (R80): a test device of the spec, not part of the hardware and not
a description of the real target's receiver. It is partial: `none` where a `require` of R80 fails. -/

namespace Sys2Proof.Machine

/-- The bit of a start marker (R80): `0x80` is 1, `0xFE` is 0. -/
def markerBit (b : Byte) : Option Bool :=
  if b = mark1 then some true else if b = mark0 then some false else none

/-- The bits of a buffer cut into ten-byte pieces: BitFrames, then the terminator and nothing after it
(R79, R80). Bytes 1 to 8 of a BitFrame are not looked at. -/
def receiveBits : List Byte → Option (List Bool)
  | b0 :: b1 :: b2 :: b3 :: b4 :: b5 :: b6 :: b7 :: b8 :: b9 :: rest =>
    if b9 = stopMark then
      match markerBit b0, receiveBits rest with
      | some b, some bits => some (b :: bits)
      | _, _ => none
    else if [b0, b1, b2, b3, b4, b5, b6, b7, b8, b9] = termFrame ∧ rest = [] then some []
    else none
  | _ => none

/-- The byte whose bits are given, bit 7 first (R80). -/
def byteOfBits (b7 b6 b5 b4 b3 b2 b1 b0 : Bool) : Byte :=
  BitVec.ofNat 8 (128 * b7.toNat + 64 * b6.toNat + 32 * b5.toNat + 16 * b4.toNat +
    8 * b3.toNat + 4 * b2.toNat + 2 * b1.toNat + b0.toNat)

/-- The source bytes of a bit string; none when the number of bits is no multiple of 8 (R80). -/
def bytesOfBits : List Bool → Option (List Byte)
  | b7 :: b6 :: b5 :: b4 :: b3 :: b2 :: b1 :: b0 :: rest =>
    match bytesOfBits rest with
    | some bs => some (byteOfBits b7 b6 b5 b4 b3 b2 b1 b0 :: bs)
    | none => none
  | [] => some []
  | _ => none

/-- The address and the data of a packet's source bytes (R80). -/
def packetOfSource : List Byte → Option (RegAddr × List Byte)
  | sync :: hi :: mid :: lo :: trailer :: data =>
    if sync = syncByte ∧ trailer = hdrTrailer then some (addrOfBytes hi mid lo, data) else none
  | _ => none

/-- `decode(buf)` of R80. -/
def receive (buf : List Byte) : Option (RegAddr × List Byte) :=
  match receiveBits buf with
  | some bits =>
    match bytesOfBits bits with
    | some src => packetOfSource src
    | none => none
  | none => none

end Sys2Proof.Machine
end

