-- ==== Sys2Proof/Machine/Target.lean ====
section
/-! DEFINITION. What the trace means to the target (R35, R36, R108, R55 to R58): which register each data
byte of a burst goes to, and which flash command strings the flash data register receives. A view of
the trace, read by no step and no part of the state (R21, R100; log 23). -/

namespace Sys2Proof.Machine

/-- One byte written to a target register; the register is `none` where the spec does not say which
(U3, U14; log 23). -/
structure RegWrite where
  addr : Option RegAddr
  value : Byte
  deriving DecidableEq, Repr

/-- The register at address `n`. Only the low 20 bits mean something to the target (R3, R31): at an
address with a bit above them set the spec makes no claim about the register hit (U3), and none about
an address that auto-increment takes past `0xFFFFF` or past the top (R35, U14). -/
def registerAt (n : Nat) : Option RegAddr :=
  if n < 2 ^ addrMeaningfulBits then some (BitVec.ofNat 24 n) else none

/-- Where byte `i` of a burst to `a` lands: `a + i` in normal mode (R35), `a` in FIFO mode (R36). The
first byte lands at `a` in either mode; for another, in an unknown mode, the spec does not say. -/
def landing (mode : Option BusMode) (a : RegAddr) (i : Nat) : Option RegAddr :=
  if i = 0 then registerAt a.toNat
  else match mode with
    | some .fifo => registerAt a.toNat
    | some .normal => registerAt (a.toNat + i)
    | none => none

/-- The register writes of a burst whose first byte has index `i`. -/
def burstWrites (mode : Option BusMode) (a : RegAddr) : Nat → List Byte → List RegWrite
  | _, [] => []
  | i, b :: bs => ⟨landing mode a i, b⟩ :: burstWrites mode a (i + 1) bs

/-- The target's bus mode after a register write (R36): it follows the two values of the mode register;
after any other value, or a write to an unknown register, it is unknown. -/
def modeAfter (p : Params) (mode : Option BusMode) (w : RegWrite) : Option BusMode :=
  if w.addr = some p.regExtMode then
    if w.value = p.extModeFifoVal then some .fifo
    else if w.value = p.extModeNormalVal then some .normal
    else none
  else if w.addr = none then none
  else mode

/-- The register writes the bursts of a trace make, for a target whose bus was in `mode` before it.
How much of a failed burst arrived is unknown (R91, U6): it is left out, and the mode after it is
unknown. DESIGN CHOICE (log 23): a burst lands as a whole in the mode it began in, and a byte of it
that writes the mode register changes the mode from the next burst on. A raw register write can put
more bytes after such a byte, and the spec does not say how they land (R36, R178, U11). -/
def regWrites (p : Params) : Option BusMode → List Event → List RegWrite
  | _, [] => []
  | mode, .write buf :: rest =>
    match receive buf with
    | some (a, data) =>
      burstWrites mode a 0 data ++
        regWrites p ((burstWrites mode a 0 data).foldl (modeAfter p) mode) rest
    | none => regWrites p none rest
  | _, .writeFailed _ :: rest => regWrites p none rest
  | mode, .opened :: rest => regWrites p mode rest
  | mode, .lines _ _ :: rest => regWrites p mode rest
  | mode, .delay _ :: rest => regWrites p mode rest
  | mode, .closed :: rest => regWrites p mode rest

/-- The flash command strings of a list of register writes: the bytes `REG_FLASH_DATA` receives between
chip-select low and chip-select high (30_encoding.md section 2). The second argument is what the
open command has received so far, none when no command is open. DESIGN CHOICE (log 23), where R40
gives no effect: a value at the chip-select register that is neither of its two levels, and a byte to
an unknown register, leave the open command as it is; chip-select low in an open command begins a new
one, and a byte for the flash outside a command is in no string (R177). -/
def flashCommands (p : Params) : Option (List Byte) → List RegWrite → List (List Byte)
  | _, [] => []
  | cur, w :: ws =>
    if w.addr = some p.regFlashCs then
      if w.value = csHighVal then
        match cur with
        | some bytes => bytes :: flashCommands p none ws
        | none => flashCommands p none ws
      else if w.value = p.csLowVal then flashCommands p (some []) ws
      else flashCommands p cur ws
    else if w.addr = some p.regFlashData then
      match cur with
      | some bytes => flashCommands p (some (bytes ++ [w.value])) ws
      | none => flashCommands p none ws
    else flashCommands p cur ws

/-- The flash command strings a stretch of trace gives the target, from no open command and normal
mode. -/
def commandsOf (p : Params) (events : List Event) : List (List Byte) :=
  flashCommands p none (regWrites p (some .normal) events)

end Sys2Proof.Machine
end

