-- ==== Sys2Proof/Safety.lean ====
section
/-! DEFINITION. The terms claims are stated in: the exact traces of the operations, written from the
traces the spec lists (42_flash_protocol.md, 43_sequencers.md); measures of a trace (R119, R133);
when an operation is admitted; and the invariant of the machine. -/

namespace Sys2Proof.Machine

/-! ## The exact traces -/

/-- `W(A, [..])` (42_flash_protocol.md, opening): one burst. -/
def burst (p : Params) (a : RegAddr) (data : List Byte) : Event :=
  .write (encodePacket p a data)

/-- `W(CS, [b])`. -/
def wCs (p : Params) (b : Byte) : Event := burst p p.regFlashCs [b]

/-- `W(D, [..])`. -/
def wData (p : Params) (data : List Byte) : Event := burst p p.regFlashData data

/-- `W(EXT, [b])`. -/
def wExt (p : Params) (b : Byte) : Event := burst p p.regExtMode [b]

/-- `W(MCU, [20])`. -/
def wMcu (p : Params) : Event := burst p p.regMcuCtrl [0x20]

/-- `STOP` (43_sequencers.md, opening). -/
def wStop (p : Params) : Event := burst p p.regCpuStop [p.cpuStopVal]

/-- `SPEED` (43_sequencers.md, opening). -/
def wSpeed (p : Params) : Event := burst p p.regSpeed [p.speedVal]

/-- The two bursts of a one-opcode command (R110 to R112). -/
def opcodeTrace (p : Params) (op : Byte) : List Event :=
  [wCs p p.csLowVal, wData p [op, 0x01]]

/-- R113. -/
def unlockTrace (p : Params) : List Event :=
  [wCs p p.csLowVal, wData p [0x01], wData p [0x00], wData p [0x00, 0x01]]

/-- R114. -/
def fifoTrace (p : Params) (a : RegAddr) (data : List Byte) : List Event :=
  [wExt p p.extModeFifoVal, burst p a data, wExt p p.extModeNormalVal]

/-- R115. -/
def sectorEraseTrace (p : Params) (a : FlashAddr) : List Event :=
  opcodeTrace p 0x06 ++
    [wCs p p.csLowVal, wData p [0x20], wData p [addrHi a], wData p [addrMid a],
     wData p [addrLo a, 0x01], .delay 300]

/-- R116. -/
def programPageTrace (p : Params) (a : FlashAddr) (data : List Byte) : List Event :=
  opcodeTrace p 0x06 ++ [wCs p p.csLowVal] ++
    fifoTrace p p.regFlashData ([0x02, addrHi a, addrMid a, addrLo a] ++ data) ++
    [wCs p 0x01, .delay 10]

/-- R130, with `n` flood writes. -/
def activateTrace (p : Params) (n : Nat) : List Event :=
  [.lines .low .low, .delay 100, .lines .high .high, wMcu p] ++ List.replicate n (wStop p) ++
    [wSpeed p, wStop p] ++ opcodeTrace p 0xAB

/-- `ceil(a / b)` (00_scope.md section 4). -/
def ceilDiv (a b : Nat) : Nat := (a + b - 1) / b

/-- The pages of an image in ascending order (R133, R134): page `k` is at address `256 k` and carries
the image's bytes from there, 256 of them or what is left. -/
def pagesOf (image : Image) : List (Nat × List Byte) :=
  (List.range (ceilDiv image.length 256)).map fun k =>
    (256 * k, (image.drop (256 * k)).take 256)

/-- What is done for one page: its sector is erased first when the page is the sector's first
(R132, R133). -/
def pageTrace (p : Params) (page : Nat × List Byte) : List Event :=
  (if page.1 % 4096 = 0 then sectorEraseTrace p (BitVec.ofNat 24 page.1) else []) ++
    programPageTrace p (BitVec.ofNat 24 page.1) page.2

/-- R132, R133: page by page, then one soft reset. -/
def programTrace (p : Params) (image : Image) : List Event :=
  (pagesOf image).flatMap (pageTrace p) ++ [wMcu p]

/-- R135. -/
def sessionTrace (p : Params) (n : Nat) (image : Image) : List Event :=
  [.opened] ++ activateTrace p n ++ unlockTrace p ++ opcodeTrace p 0x60 ++
    [.delay p.eraseAllMs] ++ programTrace p image ++ [.closed]

/-! ## Measures of a trace (R119, R133) -/

/-- The bytes of an event's burst; no event but a successful write has one (R119). -/
def burstOf : Event → Option (List Byte)
  | .write buf => some buf
  | .opened | .writeFailed _ | .lines _ _ | .delay _ | .closed => none

/-- The minimum wait of an event (R42, R95). -/
def waitOf : Event → Nat
  | .delay ms => ms
  | .opened | .write _ | .writeFailed _ | .lines _ _ | .closed => 0

/-- The number of bursts. -/
def burstCount (t : List Event) : Nat := (t.filterMap burstOf).length

/-- The number of bytes transmitted. -/
def bytesSent (t : List Event) : Nat := ((t.filterMap burstOf).map List.length).sum

/-- The least time waited, in milliseconds. -/
def waitTotal (t : List Event) : Nat := (t.map waitOf).sum

/-- The command strings of one page's work (R55, R57, R58). -/
def pageCommands (page : Nat × List Byte) : List (List Byte) :=
  (if page.1 % 4096 = 0 then [[0x06], sectorEraseString (BitVec.ofNat 24 page.1)] else []) ++
    [[0x06], pageProgramString (BitVec.ofNat 24 page.1) page.2]

/-! ## When an operation is admitted -/

/-- No failure and nothing in progress: an operation can be issued (R158 a). -/
abbrev Resting (s : State) : Prop := s.fault = none ∧ s.busy = false

/-- Admitted and the transport open (R158 b). -/
abbrev Connected (s : State) : Prop := Resting s ∧ s.transport = .opened

/-- A host-issued FlashProtocol operation is admitted (R158 a to d, R106). -/
abbrev FlashReady (s : State) : Prop :=
  Connected s ∧ s.ready = true ∧ s.tstate = .idle ∧ s.fifoMode = .normal

/-- A byte of an open flash command can be sent by the host (R107 to R109, R160). -/
abbrev CommandOpen (s : State) : Prop :=
  Connected s ∧ s.ready = true ∧ s.tstate = .cmdAsserted ∧ s.fifoMode = .normal

/-- The next `n` transport writes succeed; `rest` is what the environment does after them (R91). -/
abbrev WritesSucceed (n : Nat) (rest : List WriteResult) (s : State) : Prop :=
  s.env.writes = List.replicate n .ok ++ rest

/-- The state after an operation that appended `events` and used the environment's next writes up to
`rest`, no other variable having changed. -/
def delivered (events : List Event) (rest : List WriteResult) (s : State) : State :=
  { s with
    trace := s.trace ++ events
    env := { s.env with writes := rest }
    busy := false
    reply := some .ok }

/-- `ms` more milliseconds on the clock (R98). -/
def waited (ms : Nat) (s : State) : State :=
  { s with env := { s.env with clock := s.env.clock + ms } }

/-- The clock readings of a flood (R131): the reading that sets the deadline, then one before each
CPU-stop write, and the one that ends the loop. The readings before the writes stay below the
deadline, `dur` after the first, and the last does not. -/
abbrev FloodClock (dur first : Nat) (before : List Nat) (last : Nat) (rest : List Tick)
    (s : State) : Prop :=
  s.env.ticks = .advance first :: before.map .advance ++ .advance last :: rest ∧
  (before = [] ∨ before.sum < dur) ∧
  dur ≤ before.sum + last

/-! ## The invariant -/

/-- How often the port was opened, and closed, in a trace. -/
def openings (t : List Event) : Nat := (t.filter (fun e => decide (e = .opened))).length
def closings (t : List Event) : Nat := (t.filter (fun e => decide (e = .closed))).length

/-- What holds between steps of the machine. -/
structure Inv (s : State) : Prop where
  /-- R154: a failure ends the operation. -/
  failed_not_busy : s.fault ≠ none → s.busy = false
  /-- R14, R120: FIFO mode is never left on but by a failure or a write that never completes. -/
  resting_normal : s.fault = none → s.busy = false → s.fifoMode = .normal
  /-- R4, R99: the baud rate is fixed. -/
  baud_fixed : s.cfg.baudRate = 921600
  /-- R160, R118: before activation no flash command is open and no erase-all is being waited for. -/
  unready_idle : s.fault = none → s.busy = false → s.ready = false → s.tstate = .idle
  /-- R130, R135: the reset pulse is over when `activate` has got past it. -/
  lines_high : s.lineA = .high ∧ s.lineB = .high
  /-- R17, R151, R153: before the transport is open nothing has been done. -/
  closed_untouched : s.transport = .closed →
    s.trace = [] ∧ s.tstate = .idle ∧ s.fifoMode = .normal ∧ s.ready = false
  /-- R17, R97: opened at most once, closed at most once, and the trace shows it. -/
  opened_once : openings s.trace = if s.transport = .closed then 0 else 1
  closed_once : closings s.trace = if s.transport = .finished then 1 else 0
  /-- R152, R154: a write failure is the last thing in the trace, and the transport stays open. -/
  write_failure : s.fault = some .transportWrite →
    s.transport = .opened ∧ ∃ buf, s.trace.getLast? = some (.writeFailed buf)
  /-- R91: a failed write is latched. -/
  no_silent_failure : s.fault ≠ some .transportWrite → ∀ buf, .writeFailed buf ∉ s.trace
  /-- R151, R153, R156: the other two failures come before any protocol activity. -/
  early_failure : s.fault = some .transportOpen ∨ s.fault = some .imageRead →
    s.transport = .closed
  /-- R182: only an operation that transmits can hang. -/
  busy_connected : s.busy = true → s.transport = .opened
  /-- R20, R140: the cursor of an unfinished image is at a page, and the image fits. -/
  cursor_aligned : s.remaining ≠ 0 → s.cursor % 256 = 0
  cursor_bounded : s.cursor + s.remaining ≤ 2 ^ 24

end Sys2Proof.Machine
end

