-- ==== Sys2Proof/Certificates/Slice0/Obligations.lean ====
section
/-! DEFINITION. The statements for the provers, one definition each. "log n" is notes/assumptions/n.md.
Where a statement is about a next state that a result equation gives whole, the equation is its frame
too: every field not named in it is the field of the state before. -/

open Sys2Proof Sys2Proof.Machine

/-! ## The encoder (40_bitstream_encoder.md) -/

/-- R70. -/
def Obligations.BitFrameIsMarkerPaddingStop : Prop :=
  ∀ (p : Params) (b : Bool),
    bitFrame p b =
      ([if b then 0x80 else 0xFE, p.pad[0], p.pad[1], p.pad[2], p.pad[3], p.pad[4], p.pad[5],
        p.pad[6], p.pad[7], 0xFE] : List Byte)

/-- R72. Frame `k` of the expansion carries bit `7 - k`. -/
def Obligations.ExpandByteIsEightFramesMsbFirst : Prop :=
  ∀ (p : Params) (v : Byte),
    (expandByte p v).length = 80 ∧
    ∀ k, k < 8 → ((expandByte p v).drop (10 * k)).take 10 = bitFrame p (v.getLsbD (7 - k))

/-- R73. -/
def Obligations.HeaderCutsTheAddress : Prop :=
  ∀ a : RegAddr,
    header a =
      [0x5A, BitVec.ofNat 8 (a.toNat / 65536), BitVec.ofNat 8 (a.toNat / 256),
        BitVec.ofNat 8 a.toNat, 0x00]

/-- R74. Byte `j` of source byte `i` is at index `80 i + j`, and the terminator follows. -/
def Obligations.PacketLayout : Prop :=
  ∀ (p : Params) (a : RegAddr) (d : List Byte),
    (∀ i v, (header a ++ d)[i]? = some v →
      ((encodePacket p a d).drop (80 * i)).take 80 = expandByte p v) ∧
    (encodePacket p a d).drop (80 * (5 + d.length)) = termFrame

/-- 40_bitstream_encoder.md sections 2 and 3 (R75; R79, which the spec derives, on its decision D1):
the last ten bytes are the terminator; every ten-byte piece before it ends in the stop marker, so none
of them is a terminator. -/
def Obligations.TerminatorIsLastAndOnlyOne : Prop :=
  ∀ (p : Params) (a : RegAddr) (d : List Byte),
    (encodePacket p a d).drop ((encodePacket p a d).length - 10) = List.replicate 10 0x80 ∧
    ∀ k, k < 8 * (5 + d.length) → (encodePacket p a d)[10 * k + 9]? = some 0xFE

/-- 40_bitstream_encoder.md section 3 (R76, which the spec derives, under its resolution C2). -/
def Obligations.PacketLengthIsLinear : Prop :=
  ∀ (p : Params) (a : RegAddr) (d : List Byte),
    (encodePacket p a d).length = 80 * (5 + d.length) + 10

/-- 40_bitstream_encoder.md section 3 (R80, R81; the receiver is the spec's decision D27): every
address and every byte sequence come back, whatever the padding. -/
def Obligations.ReceiverRecoversThePacket : Prop :=
  ∀ (p : Params) (a : RegAddr) (d : List Byte), receive (encodePacket p a d) = some (a, d)

/-! ## Instruction encodings (30_encoding.md) -/

/-- Every well-formed instruction, every operand at every value: decoding its encoding gives it back
(log 4 for the premise on the parameters, log 7, log 19). -/
def Obligations.DecodeOfEncode : Prop :=
  ∀ (p : Params) (i : Instr), p.valid → i.wf p = true → decode p (encode p i) = .ok i

/-- What the decoder accepts is well formed. -/
def Obligations.DecodedIsWellFormed : Prop :=
  ∀ (p : Params) (c : Command) (i : Instr), decode p c = .ok i → i.wf p = true

/-- A few words written out from 30_encoding.md (R55 to R60). -/
def Obligations.SpecWordsDecode : Prop :=
  decodeTableWord 8 0x05 = some .unlock ∧
  decodeTableWord 8 0x0E = some .openPort ∧
  decodeTableWord 8 0x17 = some (.reservedOp 0x17) ∧
  decodeTableWord 8 0xAB = some .flashWakeUp ∧
  decodeTableWord 24 0x010000 = some .flashUnlockString ∧
  decodeTableWord 32 0x20123456 = some (.flashSectorEraseString 0x123456) ∧
  decodeTableWord 32 0x02FEDCBA = some (.flashPageProgramPrefix 0xFEDCBA []) ∧
  decodeTableWord 40 0x5A12345600 = some (.addressHeader 0x123456) ∧
  decodeTableWord 80 0x80808080808080808080 = some .terminator ∧
  decodeTableWord 80 0x800000000000000000FE = some .bitFrame1

/-! ## The step -/

/-- The step runs the decoded instruction, having taken the command from the host's list; a command
the decoder rejects is refused by its name (log 7). -/
def Obligations.StepRunsTheIssuedInstruction : Prop :=
  ∀ (s : State) (c : Command) (rest : List HostAction), s.host = .issue c :: rest →
    (∀ i, decode s.par c = .ok i → step s = exec i { s with host := rest }) ∧
    (∀ e, decode s.par c = .error e → step s = .refused (.badCommand e))

/-- With nothing issued the block waits, unchanged; a block still busy then is hung (R170, R182;
log 3, log 21). -/
def Obligations.IdleBlockWaits : Prop :=
  ∀ s : State, s.host = [] →
    (s.busy = false → step s = .next s) ∧ (s.busy = true → step s = .fault .hung)

/-- 70_reset_and_hazards.md section 1 (R170, R171; the values are the spec's decision D14; what stays
is log 20; the baud rate is fixed whatever the host supplies, log 5): a reset of the host between
operations. -/
def Obligations.HostResetRestoresResetValues : Prop :=
  ∀ (s : State) (cfg : RunConfig) (rest : List HostAction), s.host = .reset cfg :: rest →
    (s.busy = false → ∃ t, step s = .next t ∧
      t.tstate = .idle ∧ t.fifoMode = .normal ∧ t.ready = false ∧ t.fault = none ∧
      t.transport = .closed ∧ t.lineA = .high ∧ t.lineB = .high ∧ t.trace = [] ∧
      t.cursor = 0 ∧ t.remaining = 0 ∧ t.busy = false ∧
      t.cfg = { cfg with baudRate := 921600 } ∧
      t.par = s.par ∧ t.env = s.env ∧ t.host = rest ∧ t.reply = none) ∧
    (s.busy = true → step s = .refused .resetWhileBusy)

/-- 10_state.md section 5 (R26, the spec's decision D14; the configuration's default and its fixed rate are
R4). -/
def Obligations.ResetStateIsTheSpecs : Prop :=
  State.reset.tstate = .idle ∧ State.reset.fifoMode = .normal ∧ State.reset.ready = false ∧
  State.reset.fault = none ∧ State.reset.transport = .closed ∧
  State.reset.lineA = .high ∧ State.reset.lineB = .high ∧ State.reset.trace = [] ∧
  State.reset.cursor = 0 ∧ State.reset.remaining = 0 ∧ State.reset.busy = false ∧
  State.reset.cfg.activationDurationMs = 1000 ∧ State.reset.cfg.baudRate = 921600

/-! ## Functions of the encoder as operations -/

/-- `ENCODE` returns the packet to the host, transmits nothing and changes no state variable (R74; the
reply is log 14). -/
def Obligations.EncodeReturnsThePacket : Prop :=
  ∀ (s : State) (a : RegAddr) (d : List Byte), Resting s →
    exec (.encode a d) s =
      .next { s with busy := false, reply := some (.bytes (encodePacket s.par a d)) }

/-- The four format rows of the encoder return their bytes and change no state variable (R70, R71,
R73; log 13, log 14). -/
def Obligations.FormatFunctionsReturnTheirBytes : Prop :=
  ∀ (s : State) (a : RegAddr), Resting s →
    exec .bitFrame1 s =
      .next { s with busy := false, reply := some (.bytes (bitFrame s.par true)) } ∧
    exec .bitFrame0 s =
      .next { s with busy := false, reply := some (.bytes (bitFrame s.par false)) } ∧
    exec .terminator s =
      .next { s with busy := false, reply := some (.bytes (List.replicate 10 0x80)) } ∧
    exec (.addressHeader a) s =
      .next { s with busy := false, reply := some (.bytes (header a)) }

/-! ## The transport (41_transport_and_register_write.md) -/

/-- `OPEN` when the device opens (R90; log 1 for the environment). -/
def Obligations.OpenOpensTheTransport : Prop :=
  ∀ (s : State) (rest : List OpenResult), Resting s → s.transport = .closed →
    s.env.opens = .opened :: rest →
    exec .openPort s =
      .next { s with
        transport := .opened
        trace := s.trace ++ [.opened]
        env := { s.env with opens := rest }
        busy := false
        reply := some .ok }

/-- R151: the device cannot be opened. The premise `Inv` is the invariant of O53 and O54: before the
transport is open the trace is empty. -/
def Obligations.OpenFailureIsLatched : Prop :=
  ∀ (s : State) (rest : List OpenResult), Inv s → Resting s → s.transport = .closed →
    s.env.opens = .refused :: rest →
    exec .openPort s =
      .next { s with
        fault := some .transportOpen
        env := { s.env with opens := rest }
        busy := false
        reply := some (.failed .transportOpen) } ∧
    s.trace = [] ∧ s.lineA = .high ∧ s.lineB = .high

/-- `OPEN` a second time (R90, R158 b): refused. -/
def Obligations.OpenOnlyOnce : Prop :=
  ∀ s : State, Resting s → s.transport ≠ .closed →
    exec .openPort s = .refused .transportNotClosed ∧
    ∀ image, exec (.session image) s = .refused .transportNotClosed

/-- R94: one packet, one transport write; nothing but the trace changes, and on failure `st.fault`. -/
def Obligations.WriteRegIsOneBurst : Prop :=
  ∀ (s : State) (a : RegAddr) (d : List Byte) (rest : List WriteResult), Connected s →
    (s.env.writes = .ok :: rest →
      exec (.writeReg a d) s = .next (delivered [.write (encodePacket s.par a d)] rest s)) ∧
    (s.env.writes = .fails :: rest →
      exec (.writeReg a d) s =
        .next { s with
          fault := some .transportWrite
          trace := s.trace ++ [.writeFailed (encodePacket s.par a d)]
          env := { s.env with writes := rest }
          busy := false
          reply := some (.failed .transportWrite) })

/-- 70_reset_and_hazards.md R182 (which the spec derives; log 3): a write that never completes leaves
the block busy for ever, nothing more in the trace; nothing can be issued then. -/
def Obligations.UnfinishedWriteHangs : Prop :=
  ∀ (s : State) (a : RegAddr) (d : List Byte) (rest : List WriteResult), Connected s →
    s.env.writes = .never :: rest →
    ∃ t, exec (.writeReg a d) s = .next t ∧
      t = { s with busy := true, env := { s.env with writes := rest }, reply := none } ∧
      ∀ i, ∃ r, exec i t = .refused r

/-- R97: `CLOSE`, and after it no operation that transmits, opens or closes can run. -/
def Obligations.CloseIsFinal : Prop :=
  ∀ s : State, Connected s →
    ∃ t, exec .closePort s = .next t ∧
      t = { s with
        transport := .finished
        trace := s.trace ++ [.closed]
        busy := false
        reply := some .ok } ∧
      ∀ i, (∀ a d, i ≠ .encode a d) → (∀ ms, i ≠ .settle ms) → (∀ a, i ≠ .addressHeader a) →
        i ≠ .bitFrame1 → i ≠ .bitFrame0 → i ≠ .terminator → ∃ r, exec i t = .refused r

/-! ## FlashProtocol operations (42_flash_protocol.md) -/

/-- 42_flash_protocol.md section 3 (R110, R111, on the spec's decisions D6, D7): two bursts and back
to `Idle`. -/
def Obligations.WriteEnableAndWakeUpComplete : Prop :=
  ∀ (s : State) (rest : List WriteResult), FlashReady s → WritesSucceed 2 rest s →
    exec .writeEnable s = .next (delivered
      [burst s.par s.par.regFlashCs [s.par.csLowVal],
       burst s.par s.par.regFlashData [0x06, 0x01]] rest s) ∧
    exec .wakeUp s = .next (delivered
      [burst s.par s.par.regFlashCs [s.par.csLowVal],
       burst s.par s.par.regFlashData [0xAB, 0x01]] rest s)

/-- 42_flash_protocol.md section 3 (R112, decision D11): the operation returns in `Programming`. -/
def Obligations.EraseAllLeavesProgramming : Prop :=
  ∀ (s : State) (rest : List WriteResult), FlashReady s → WritesSucceed 2 rest s →
    exec .eraseAll s = .next { delivered
      [burst s.par s.par.regFlashCs [s.par.csLowVal],
       burst s.par s.par.regFlashData [0x60, 0x01]] rest s with tstate := .programming }

/-- 42_flash_protocol.md section 3 (R113, decision D8): four bursts. -/
def Obligations.UnlockIsFourBursts : Prop :=
  ∀ (s : State) (rest : List WriteResult), FlashReady s → WritesSucceed 4 rest s →
    exec .unlock s = .next (delivered
      [burst s.par s.par.regFlashCs [s.par.csLowVal],
       burst s.par s.par.regFlashData [0x01],
       burst s.par s.par.regFlashData [0x00],
       burst s.par s.par.regFlashData [0x00, 0x01]] rest s)

/-- 42_flash_protocol.md section 3 (R114, decision D10): mode on, one burst, mode off; the mode
register itself is refused. -/
def Obligations.WriteFifoRegTogglesTheMode : Prop :=
  ∀ (s : State) (a : RegAddr) (d : List Byte) (rest : List WriteResult), FlashReady s →
    (a ≠ s.par.regExtMode → WritesSucceed 3 rest s →
      exec (.writeFifoReg a d) s = .next (delivered
        [burst s.par s.par.regExtMode [s.par.extModeFifoVal],
         burst s.par a d,
         burst s.par s.par.regExtMode [s.par.extModeNormalVal]] rest s)) ∧
    (a = s.par.regExtMode →
      exec (.writeFifoReg a d) s = .refused .fifoTargetsModeRegister)

/-- 42_flash_protocol.md section 3 (R115, on decisions D6, D7): seven bursts and 300 ms. -/
def Obligations.SectorEraseCompletes : Prop :=
  ∀ (s : State) (a : FlashAddr) (rest : List WriteResult), FlashReady s → WritesSucceed 7 rest s →
    exec (.sectorErase a) s = .next (waited 300 (delivered
      [burst s.par s.par.regFlashCs [s.par.csLowVal],
       burst s.par s.par.regFlashData [0x06, 0x01],
       burst s.par s.par.regFlashCs [s.par.csLowVal],
       burst s.par s.par.regFlashData [0x20],
       burst s.par s.par.regFlashData [addrHi a],
       burst s.par s.par.regFlashData [addrMid a],
       burst s.par s.par.regFlashData [addrLo a, 0x01],
       .delay 300] rest s))

/-- 42_flash_protocol.md section 3 (R116, on decisions D6, D7, D18): seven bursts and 10 ms for up to
256 bytes; more is refused. -/
def Obligations.ProgramPageCompletes : Prop :=
  ∀ (s : State) (a : FlashAddr) (d : List Byte) (rest : List WriteResult), FlashReady s →
    (d.length ≤ 256 → WritesSucceed 7 rest s →
      exec (.programPage a d) s = .next (waited 10 (delivered
        [burst s.par s.par.regFlashCs [s.par.csLowVal],
         burst s.par s.par.regFlashData [0x06, 0x01],
         burst s.par s.par.regFlashCs [s.par.csLowVal],
         burst s.par s.par.regExtMode [s.par.extModeFifoVal],
         burst s.par s.par.regFlashData ([0x02, addrHi a, addrMid a, addrLo a] ++ d),
         burst s.par s.par.regExtMode [s.par.extModeNormalVal],
         burst s.par s.par.regFlashCs [0x01],
         .delay 10] rest s))) ∧
    (256 < d.length → exec (.programPage a d) s = .refused .pageTooLong)

/-- 42_flash_protocol.md section 3 (R117, decision D30): one burst, activation no longer holds; no
activation is required. The row MCU_SOFT_RESET has the same effect (log 10). -/
def Obligations.SoftResetClearsReady : Prop :=
  ∀ (s : State) (rest : List WriteResult), Connected s → s.tstate = .idle →
    s.env.writes = .ok :: rest →
    exec .softReset s =
      .next { delivered [burst s.par s.par.regMcuCtrl [0x20]] rest s with ready := false } ∧
    exec .mcuSoftReset s =
      .next { delivered [burst s.par s.par.regMcuCtrl [0x20]] rest s with ready := false }

/-- 42_flash_protocol.md section 3 (R118, decision D11): the wait, its lower bound, and the state it
belongs to; neither activation nor the transport is required. -/
def Obligations.SettleEndsProgramming : Prop :=
  ∀ (s : State) (ms : Nat), Resting s →
    (s.tstate = .programming → s.par.eraseAllMs ≤ ms →
      exec (.settle ms) s =
        .next { s with
          tstate := .idle
          trace := s.trace ++ [.delay ms]
          env := { s.env with clock := s.env.clock + ms }
          busy := false
          reply := some .ok }) ∧
    (s.tstate = .programming → ms < s.par.eraseAllMs →
      exec (.settle ms) s = .refused .settleTooShort) ∧
    (s.tstate ≠ .programming → exec (.settle ms) s = .refused .wrongControllerState)

/-! ## Internal steps of the flash formats (log 10) -/

/-- `csLow()` and `csHigh(next)` (42_flash_protocol.md section 2, R106, R109, decisions D6, D9;
log 12), issued by the host of an activated block (R160, log 10). -/
def Obligations.ChipSelectStepsComplete : Prop :=
  ∀ (s : State) (rest : List WriteResult), Connected s → s.ready = true →
    s.fifoMode = .normal → s.env.writes = .ok :: rest →
    (s.tstate = .idle →
      exec .csLow s = .next { delivered
        [burst s.par s.par.regFlashCs [s.par.csLowVal]] rest s with tstate := .cmdAsserted }) ∧
    (s.tstate = .cmdAsserted →
      exec (.csHigh .toIdle) s = .next { delivered
        [burst s.par s.par.regFlashCs [0x01]] rest s with tstate := .idle } ∧
      exec (.csHigh .toProgramming) s = .next { delivered
        [burst s.par s.par.regFlashCs [0x01]] rest s with tstate := .programming })

/-- The six opcodes in an open bracket (42_flash_protocol.md section 2, R107, R108; log 10,
log 11). -/
def Obligations.FlashOpcodeStepsComplete : Prop :=
  ∀ (s : State) (rest : List WriteResult), CommandOpen s → s.env.writes = .ok :: rest →
    exec .flashWriteEnable s = .next { delivered
      [burst s.par s.par.regFlashData [0x06, 0x01]] rest s with tstate := .idle } ∧
    exec .flashWakeUp s = .next { delivered
      [burst s.par s.par.regFlashData [0xAB, 0x01]] rest s with tstate := .idle } ∧
    exec .flashEraseAll s = .next { delivered
      [burst s.par s.par.regFlashData [0x60, 0x01]] rest s with tstate := .programming } ∧
    exec .flashUnlock s = .next (delivered [burst s.par s.par.regFlashData [0x01]] rest s) ∧
    exec .flashSectorErase s = .next (delivered [burst s.par s.par.regFlashData [0x20]] rest s) ∧
    exec .flashPageProgram s = .next (delivered [burst s.par s.par.regFlashData [0x02]] rest s)

/-- The three command strings in an open bracket (42_flash_protocol.md section 3; log 10). -/
def Obligations.FlashStringStepsComplete : Prop :=
  ∀ (s : State) (a : FlashAddr) (d : List Byte) (rest : List WriteResult), CommandOpen s →
    (WritesSucceed 3 rest s →
      exec .flashUnlockString s = .next { delivered
        [burst s.par s.par.regFlashData [0x01],
         burst s.par s.par.regFlashData [0x00],
         burst s.par s.par.regFlashData [0x00, 0x01]] rest s with tstate := .idle }) ∧
    (WritesSucceed 4 rest s →
      exec (.flashSectorEraseString a) s = .next { delivered
        [burst s.par s.par.regFlashData [0x20],
         burst s.par s.par.regFlashData [addrHi a],
         burst s.par s.par.regFlashData [addrMid a],
         burst s.par s.par.regFlashData [addrLo a, 0x01]] rest s with tstate := .programming }) ∧
    (d.length ≤ 256 → WritesSucceed 3 rest s →
      exec (.flashPageProgramPrefix a d) s = .next (delivered
        [burst s.par s.par.regExtMode [s.par.extModeFifoVal],
         burst s.par s.par.regFlashData ([0x02, addrHi a, addrMid a, addrLo a] ++ d),
         burst s.par s.par.regExtMode [s.par.extModeNormalVal]] rest s))

/-! ## Refusals (60_exceptions.md R158) -/

/-- R155: while a failure is latched every operation is refused, and only a reset of the host clears
it. -/
def Obligations.LatchedFailureIsFinal : Prop :=
  (∀ (i : Instr) (s : State) (f : Failure), s.fault = some f → ∃ r, exec i s = .refused r) ∧
  (∀ (s t : State) (f : Failure), s.fault = some f → step s = .next t →
    t.fault = some f ∨ ∃ cfg rest, s.host = .reset cfg :: rest)

/-- 60_exceptions.md section 1 (R158 a, decision D32): nothing is issued while an operation is in
progress. -/
def Obligations.BusyRefusesEveryOperation : Prop :=
  ∀ (i : Instr) (s : State), s.busy = true → ∃ r, exec i s = .refused r

/-- 60_exceptions.md section 3 (R160, R158 c, decision D17): before activation the FlashProtocol
operations and `program` are refused, whatever else holds; with all else met the name is that of the
gate. The rows of the flash formats have the same gate (log 10). -/
def Obligations.ActivationGate : Prop :=
  ∀ (i : Instr) (s : State), s.ready = false →
    (i = .writeEnable ∨ i = .wakeUp ∨ i = .eraseAll ∨ i = .unlock ∨
      (∃ a d, i = .writeFifoReg a d) ∨ (∃ a, i = .sectorErase a) ∨
      (∃ a d, i = .programPage a d) ∨ (∃ image, i = .program image) ∨
      i = .csLow ∨ (∃ next, i = .csHigh next) ∨ i = .flashWriteEnable ∨ i = .flashWakeUp ∨
      i = .flashEraseAll ∨ i = .flashUnlock ∨ i = .flashSectorErase ∨ i = .flashPageProgram ∨
      i = .flashUnlockString ∨ (∃ a, i = .flashSectorEraseString a) ∨
      ∃ a d, i = .flashPageProgramPrefix a d) →
    (∃ r, exec i s = .refused r) ∧ (Connected s → exec i s = .refused .notActivated)

/-- 42_flash_protocol.md section 1 and 60_exceptions.md section 1 (R105, R158 d; R106 to R109; decision
D9): with all else met, what requires `Idle` is refused in any other controller state, and the steps
of an open command are refused outside `CmdAsserted` (log 10). `softReset`, its value and `activate`
need no activation. `settle` in the wrong state is in O30. -/
def Obligations.WrongControllerStateRefused : Prop :=
  (∀ (i : Instr) (s : State), Connected s → s.tstate ≠ .idle →
    (i = .softReset ∨ i = .mcuSoftReset ∨ i = .activate) →
    exec i s = .refused .wrongControllerState) ∧
  (∀ (i : Instr) (s : State), Connected s → s.ready = true → s.tstate ≠ .idle →
    (i = .writeEnable ∨ i = .wakeUp ∨ i = .eraseAll ∨ i = .unlock ∨
      (∃ a d, i = .writeFifoReg a d) ∨ (∃ a, i = .sectorErase a) ∨
      (∃ a d, i = .programPage a d) ∨ (∃ image, i = .program image) ∨ i = .csLow) →
    exec i s = .refused .wrongControllerState) ∧
  (∀ (i : Instr) (s : State), Connected s → s.ready = true → s.tstate ≠ .cmdAsserted →
    ((∃ next, i = .csHigh next) ∨ i = .flashWriteEnable ∨ i = .flashWakeUp ∨
      i = .flashEraseAll ∨ i = .flashUnlock ∨ i = .flashSectorErase ∨ i = .flashPageProgram ∨
      i = .flashUnlockString ∨ (∃ a, i = .flashSectorEraseString a) ∨
      ∃ a d, i = .flashPageProgramPrefix a d) →
    exec i s = .refused .wrongControllerState)

/-- 43_sequencers.md R132, R140 (decision D19): an image of more than 2^24 bytes. -/
def Obligations.OversizeImageRefused : Prop :=
  ∀ (s : State) (image : Image), FlashReady s → 2 ^ 24 < image.length →
    exec (.program image) s = .refused .imageTooLong

/-- 30_encoding.md R61 (a), the spec's own codes (D20): the reserved codes decode to the reserved
operation, and it is refused from every state. -/
def Obligations.ReservedOperationRefused : Prop :=
  ∀ (p : Params) (c : Command) (code : BitVec 5) (s : State), 16 ≤ code.toNat →
    c.select = .opSelect code →
    decode p c = .ok (.reservedOp code) ∧
    exec (.reservedOp code) s = .refused .reservedOperation

/-! ## Failures inside an operation (60_exceptions.md R152, R154) -/

/-- Every operation, every state: a write failure is the last event, the first of its kind since the
operation began; the host is told; the operation has ended with the transport open and not closed
(R93, R152, R154; reply: log 14). -/
def Obligations.WriteFailureIsPrecise : Prop :=
  ∀ (i : Instr) (s t : State), exec i s = .next t → t.fault = some .transportWrite →
    t.busy = false ∧ t.reply = some (.failed .transportWrite) ∧ t.transport = .opened ∧
    ∃ before buf, t.trace = s.trace ++ before ++ [.writeFailed buf] ∧
      (∀ b, .writeFailed b ∉ before) ∧ .closed ∉ before

/-- 70_reset_and_hazards.md section 5 (R189, which the spec derives; log 3, log 14): an operation that
answers a next state has completed, has failed, or hangs, and these exclude each other. -/
def Obligations.EveryOperationEndsOneWay : Prop :=
  ∀ (i : Instr) (s t : State), exec i s = .next t →
    s.fault = none ∧ s.busy = false ∧
    ((t.fault = none ∧ t.busy = false ∧ (t.reply = some .ok ∨ ∃ b, t.reply = some (.bytes b))) ∨
     (∃ f, t.fault = some f ∧ t.busy = false ∧ t.reply = some (.failed f)) ∨
     (t.fault = none ∧ t.busy = true ∧ t.reply = none))

/-- 42_flash_protocol.md section 3 (R110) and 95_test_vectors.md V50, V51: where a write-enable fails
decides what is left: nothing opened, or chip-select left low. -/
def Obligations.WriteEnableFailurePoints : Prop :=
  ∀ (s : State) (rest : List WriteResult), FlashReady s →
    (s.env.writes = .fails :: rest →
      exec .writeEnable s =
        .next { s with
          fault := some .transportWrite
          trace := s.trace ++
            [.writeFailed (encodePacket s.par s.par.regFlashCs [s.par.csLowVal])]
          env := { s.env with writes := rest }
          busy := false
          reply := some (.failed .transportWrite) }) ∧
    (s.env.writes = .ok :: .fails :: rest →
      exec .writeEnable s =
        .next { s with
          tstate := .cmdAsserted
          fault := some .transportWrite
          trace := s.trace ++
            [.write (encodePacket s.par s.par.regFlashCs [s.par.csLowVal]),
             .writeFailed (encodePacket s.par s.par.regFlashData [0x06, 0x01])]
          env := { s.env with writes := rest }
          busy := false
          reply := some (.failed .transportWrite) })

/-- 42_flash_protocol.md section 3 (R114, R116) and 95_test_vectors.md V54: when the FIFO burst of a
page program fails, the bracket stays open, FIFO mode stays on, and nothing is waited. -/
def Obligations.FailedPageLeavesFifoMode : Prop :=
  ∀ (s : State) (a : FlashAddr) (d : List Byte) (rest : List WriteResult), FlashReady s →
    d.length ≤ 256 → s.env.writes = .ok :: .ok :: .ok :: .ok :: .fails :: rest →
    exec (.programPage a d) s =
      .next { s with
        tstate := .cmdAsserted
        fifoMode := .fifo
        fault := some .transportWrite
        trace := s.trace ++
          [burst s.par s.par.regFlashCs [s.par.csLowVal],
           burst s.par s.par.regFlashData [0x06, 0x01],
           burst s.par s.par.regFlashCs [s.par.csLowVal],
           burst s.par s.par.regExtMode [s.par.extModeFifoVal],
           .writeFailed (encodePacket s.par s.par.regFlashData
             ([0x02, addrHi a, addrMid a, addrLo a] ++ d))]
        env := { s.env with writes := rest }
        busy := false
        reply := some (.failed .transportWrite) }

/-! ## The sequencers (43_sequencers.md) -/

/-- 43_sequencers.md section 1 (R130, R131, decisions D12, D13; log 2): for every clock that lets the
flood send any number of writes, `ACTIVATE` completes with exactly the events of R130. -/
def Obligations.ActivateCompletes : Prop :=
  ∀ (s : State) (first : Nat) (before : List Nat) (last : Nat) (restT : List Tick)
    (restW : List WriteResult), Connected s → s.tstate = .idle → s.fifoMode = .normal →
    FloodClock s.cfg.activationDurationMs first before last restT s →
    WritesSucceed (before.length + 5) restW s →
    exec .activate s =
      .next { s with
        ready := true
        lineA := .high
        lineB := .high
        trace := s.trace ++ activateTrace s.par before.length
        env := { s.env with
          writes := restW
          ticks := restT
          clock := s.env.clock + 100 + first + before.sum + last }
        busy := false
        reply := some .ok }

/-- 43_sequencers.md section 1 (R130, R131): whatever the environment does, an `ACTIVATE` that completes
has sent the events of R130 for some number of flood writes, none when the duration is 0, and leaves
the block activated and idle. -/
def Obligations.ActivateTraceForEveryFlood : Prop :=
  ∀ s t : State, exec .activate s = .next t → t.fault = none → t.busy = false →
    t.ready = true ∧ t.tstate = .idle ∧ t.lineA = .high ∧ t.lineB = .high ∧
    ∃ n, t.trace = s.trace ++ activateTrace s.par n ∧
      (s.cfg.activationDurationMs = 0 → n = 0) ∧
      s.env.clock + 100 + s.cfg.activationDurationMs ≤ t.env.clock

/-- 43_sequencers.md section 2 (R132, R133, on decisions D7, D19): the loop over the cursor does page by
page what R133 lists, for every image, and ends with one soft reset. -/
def Obligations.ProgramCompletes : Prop :=
  ∀ (s : State) (image : Image) (rest : List WriteResult), FlashReady s →
    image.length ≤ 2 ^ 24 →
    WritesSucceed (7 * ceilDiv image.length 4096 + 7 * ceilDiv image.length 256 + 1) rest s →
    exec (.program image) s =
      .next { s with
        ready := false
        cursor := image.length
        remaining := 0
        trace := s.trace ++ programTrace s.par image
        env := { s.env with
          writes := rest
          clock := s.env.clock + 300 * ceilDiv image.length 4096 +
            10 * ceilDiv image.length 256 }
        busy := false
        reply := some .ok }

/-- 43_sequencers.md section 2 (R133, which the spec derives): bursts, bytes and waits of `program`. -/
def Obligations.ProgramTraceCounts : Prop :=
  ∀ (p : Params) (image : Image),
    burstCount (programTrace p image) =
      7 * ceilDiv image.length 4096 + 7 * ceilDiv image.length 256 + 1 ∧
    bytesSent (programTrace p image) =
      3590 * ceilDiv image.length 4096 + 3750 * ceilDiv image.length 256 +
        80 * image.length + 490 ∧
    waitTotal (programTrace p image) =
      300 * ceilDiv image.length 4096 + 10 * ceilDiv image.length 256

/-- 43_sequencers.md section 2 (R134): the pages carry every byte of the image exactly once, in
ascending address order with no gap, each at a multiple of 256 and not empty. -/
def Obligations.PagesCoverTheImage : Prop :=
  ∀ image : Image,
    (pagesOf image).flatMap Prod.snd = image ∧
    (∀ page ∈ pagesOf image, page.1 % 256 = 0 ∧ 1 ≤ page.2.length ∧ page.2.length ≤ 256) ∧
    (∀ k page, (pagesOf image)[k]? = some page →
      page.1 = 256 * k ∧ (((pagesOf image).take k).flatMap Prod.snd).length = page.1)

/-- 43_sequencers.md section 3 (R135, decisions D11, D12, D16, D23): a whole session from a closed
transport, for every image and every clock. -/
def Obligations.SessionCompletes : Prop :=
  ∀ (s : State) (image : Image) (first : Nat) (before : List Nat) (last : Nat)
    (restO : List OpenResult) (restT : List Tick) (restW : List WriteResult),
    Resting s → s.transport = .closed → s.tstate = .idle → s.fifoMode = .normal →
    image.length ≤ 2 ^ 24 → s.env.opens = .opened :: restO →
    FloodClock s.cfg.activationDurationMs first before last restT s →
    WritesSucceed (before.length + 11 +
      (7 * ceilDiv image.length 4096 + 7 * ceilDiv image.length 256 + 1)) restW s →
    exec (.session (some image)) s =
      .next { s with
        ready := false
        transport := .finished
        lineA := .high
        lineB := .high
        cursor := image.length
        remaining := 0
        trace := s.trace ++ sessionTrace s.par before.length image
        env := { s.env with
          opens := restO
          writes := restW
          ticks := restT
          clock := s.env.clock + 100 + first + before.sum + last + s.par.eraseAllMs +
            300 * ceilDiv image.length 4096 + 10 * ceilDiv image.length 256 }
        busy := false
        reply := some .ok }

/-- 60_exceptions.md section 1 (R153, R156, decision D16): an unreadable image fails the session before
anything is done. -/
def Obligations.UnreadableImageFailsFirst : Prop :=
  ∀ s : State, Resting s → s.transport = .closed →
    exec (.session none) s =
      .next { s with
        fault := some .imageRead
        busy := false
        reply := some (.failed .imageRead) }

/-! ## What the target receives (30_encoding.md section 2; the view is log 23) -/

/-- The command strings of R55 to R58 arrive at the target between chip-select low and high, for
registers of which the spec says what an address hits (R31, U3). -/
def Obligations.OperationsSendTheirCommandStrings : Prop :=
  ∀ (p : Params) (a : FlashAddr) (d : List Byte), p.valid → p.meaningful →
    commandsOf p (opcodeTrace p 0x06) = [[0x06]] ∧
    commandsOf p (opcodeTrace p 0xAB) = [[0xAB]] ∧
    commandsOf p (opcodeTrace p 0x60) = [[0x60]] ∧
    commandsOf p (unlockTrace p) = [[0x01, 0x00, 0x00]] ∧
    commandsOf p (sectorEraseTrace p a) = [[0x06], [0x20, addrHi a, addrMid a, addrLo a]] ∧
    commandsOf p (programPageTrace p a d) =
      [[0x06], [0x02, addrHi a, addrMid a, addrLo a] ++ d]

/-- Programming an image sends the target exactly one page-program string per page, with the page's
bytes, and one sector-erase string before the first page of each sector, each after a write-enable
(R55, R57, R58, R132, R134), for registers of which the spec says what an address hits (R31, U3). -/
def Obligations.ProgramSendsTheImage : Prop :=
  ∀ (p : Params) (image : Image), p.valid → p.meaningful →
    commandsOf p (programTrace p image) = (pagesOf image).flatMap pageCommands

/-! ## The whole machine -/

/-- The invariant holds right after reset. -/
def Obligations.ResetMeetsTheInvariant : Prop := Inv State.reset

/-- Every step keeps the invariant, from every state that has it, whatever the environment does. -/
def Obligations.StepKeepsTheInvariant : Prop :=
  ∀ s t : State, Inv s → step s = .next t → Inv t

/-- The frame of every operation, whether it completes, fails or hangs: the parameters, the
configuration and the host's list stay, the trace only grows, and the clock moves on by at least what
was waited (R19, R95, R98, R188). -/
def Obligations.EveryOperationKeepsTheFrame : Prop :=
  ∀ (i : Instr) (s t : State), exec i s = .next t →
    t.par = s.par ∧ t.cfg = s.cfg ∧ t.host = s.host ∧
    ∃ events, t.trace = s.trace ++ events ∧
      s.env.clock + waitTotal events ≤ t.env.clock

/-- Which operations can change which variable, whether they complete, fail or hang: the lines (R18),
the cursor (R20), the transport (R17), the bus mode (R14), the gate (R15). -/
def Obligations.OnlyTheseOperationsWriteEachVariable : Prop :=
  ∀ (i : Instr) (s t : State), exec i s = .next t → (∀ image, i ≠ .session image) →
    (i ≠ .activate → t.lineA = s.lineA ∧ t.lineB = s.lineB ∧ t.env.ticks = s.env.ticks) ∧
    ((∀ image, i ≠ .program image) → t.cursor = s.cursor ∧ t.remaining = s.remaining) ∧
    (i ≠ .openPort → t.env.opens = s.env.opens ∧ (i ≠ .closePort → t.transport = s.transport)) ∧
    ((∀ a d, i ≠ .writeFifoReg a d) → (∀ a d, i ≠ .programPage a d) →
      (∀ a d, i ≠ .flashPageProgramPrefix a d) → (∀ image, i ≠ .program image) →
      t.fifoMode = s.fifoMode) ∧
    (i ≠ .activate → i ≠ .softReset → i ≠ .mcuSoftReset → (∀ image, i ≠ .program image) →
      t.ready = s.ready) ∧
    (i ≠ .activate → t.ready = true → s.ready = true)

/-- The functions of the encoder, the operations on the transport, register and FIFO writes, soft reset
and the flash bytes that do not close their command leave the controller state (R105), whether they
complete, fail or hang. -/
def Obligations.ControllerStateFrame : Prop :=
  ∀ (i : Instr) (s t : State), exec i s = .next t →
    ((∃ a d, i = .encode a d) ∨ (∃ a d, i = .writeReg a d) ∨ (∃ a d, i = .writeFifoReg a d) ∨
      i = .softReset ∨ i = .mcuSoftReset ∨ i = .openPort ∨ i = .closePort ∨ i = .bitFrame1 ∨
      i = .bitFrame0 ∨ i = .terminator ∨ (∃ a, i = .addressHeader a) ∨ i = .flashUnlock ∨
      i = .flashSectorErase ∨ i = .flashPageProgram ∨
      ∃ a d, i = .flashPageProgramPrefix a d) →
    t.tstate = s.tstate

/-- What the host got back from an earlier operation is read by no operation (R23: no state across
calls; log 14). -/
def Obligations.ReplyIsNeverRead : Prop :=
  ∀ (i : Instr) (s : State) (r : Option Reply), exec i { s with reply := r } = exec i s

/-! ## More refusals (60_exceptions.md R158 b, R160) -/

/-- 60_exceptions.md section 1 (R158 b): while the transport is not open, before the port is opened
and after it is closed, everything that transmits or closes is refused by that name. -/
def Obligations.TransportMustBeOpen : Prop :=
  ∀ (i : Instr) (s : State), Resting s → s.transport ≠ .opened →
    (∀ a d, i ≠ .encode a d) → (∀ ms, i ≠ .settle ms) → (∀ a, i ≠ .addressHeader a) →
    i ≠ .bitFrame1 → i ≠ .bitFrame0 → i ≠ .terminator →
    i ≠ .openPort → (∀ image, i ≠ .session image) → (∀ code, i ≠ .reservedOp code) →
    exec i s = .refused .transportNotOpen

/-- 60_exceptions.md section 3 (R160, decision D17): in every state that meets the invariant (O53, O54)
only these can run before activation: the operations that R160 lists, the soft-reset value with its
operation (log 10), and the functions of the encoder (log 13). `settle`, which needs no activation of
its own (R118), is refused there because no erase-all can be under way. -/
def Obligations.OnlyTheseRunBeforeActivation : Prop :=
  ∀ (i : Instr) (s t : State), Inv s → s.ready = false → exec i s = .next t →
    i = .openPort ∨ i = .activate ∨ i = .softReset ∨ i = .mcuSoftReset ∨
    (∃ a d, i = .encode a d) ∨ (∃ a d, i = .writeReg a d) ∨ i = .closePort ∨
    (∃ image, i = .session image) ∨
    i = .bitFrame1 ∨ i = .bitFrame0 ∨ i = .terminator ∨ ∃ a, i = .addressHeader a
end

