-- ==== Sys2Proof/Laws/Bitstream.lean ====
section
/-! SUPPORT. Lengths of the encoder's formats, and the slices of a 24-bit address put together again. -/

namespace Sys2Proof

@[simp] theorem bitFrame_length (p : Params) (b : Bool) : (bitFrame p b).length = 10 := by
  simp [bitFrame]

@[simp] theorem termFrame_length : termFrame.length = 10 := rfl

@[simp] theorem expandByte_length (p : Params) (v : Byte) : (expandByte p v).length = 80 := by
  simp [expandByte, bitsMsbFirst]

@[simp] theorem header_length (a : RegAddr) : (header a).length = 5 := rfl

@[simp] theorem packetSource_length (a : RegAddr) (d : List Byte) :
    (packetSource a d).length = 5 + d.length := by
  simp [packetSource]

@[simp] theorem addrOfBytes_slices (a : BitVec 24) :
    addrOfBytes (addrHi a) (addrMid a) (addrLo a) = a := by
  unfold addrOfBytes addrHi addrMid addrLo
  apply BitVec.eq_of_getLsbD_eq
  intro i hi
  simp only [BitVec.getLsbD_append, BitVec.getLsbD_extractLsb']
  split
  · simp; omega
  · split
    · rename_i h1 h2
      rw [show 8 + (i - 8) = i by omega]
      simp [h2]
    · rename_i h1 h2
      rw [show 16 + (i - 8 - 8) = i by omega]
      simp; omega

end Sys2Proof
end

