-- ==== Sys2Proof/Laws/State.lean ====
section
/-! SUPPORT. One lemma per field per update of the state, true by unfolding, so that no proof unfolds a
record update; and the fields of the reset state. -/

namespace Sys2Proof.Machine

/-! ## `emit` -/

@[simp] theorem emit_par (e : Event) (s : State) : (emit e s).par = s.par := rfl
@[simp] theorem emit_cfg (e : Event) (s : State) : (emit e s).cfg = s.cfg := rfl
@[simp] theorem emit_tstate (e : Event) (s : State) : (emit e s).tstate = s.tstate := rfl
@[simp] theorem emit_fifoMode (e : Event) (s : State) : (emit e s).fifoMode = s.fifoMode := rfl
@[simp] theorem emit_ready (e : Event) (s : State) : (emit e s).ready = s.ready := rfl
@[simp] theorem emit_fault (e : Event) (s : State) : (emit e s).fault = s.fault := rfl
@[simp] theorem emit_transport (e : Event) (s : State) : (emit e s).transport = s.transport := rfl
@[simp] theorem emit_lineA (e : Event) (s : State) : (emit e s).lineA = s.lineA := rfl
@[simp] theorem emit_lineB (e : Event) (s : State) : (emit e s).lineB = s.lineB := rfl
@[simp] theorem emit_trace (e : Event) (s : State) : (emit e s).trace = s.trace ++ [e] := rfl
@[simp] theorem emit_cursor (e : Event) (s : State) : (emit e s).cursor = s.cursor := rfl
@[simp] theorem emit_remaining (e : Event) (s : State) : (emit e s).remaining = s.remaining := rfl
@[simp] theorem emit_busy (e : Event) (s : State) : (emit e s).busy = s.busy := rfl
@[simp] theorem emit_env (e : Event) (s : State) : (emit e s).env = s.env := rfl
@[simp] theorem emit_host (e : Event) (s : State) : (emit e s).host = s.host := rfl
@[simp] theorem emit_reply (e : Event) (s : State) : (emit e s).reply = s.reply := rfl

/-! ## `raise` -/

@[simp] theorem raise_par (f : Failure) (s : State) : (raise f s).par = s.par := rfl
@[simp] theorem raise_cfg (f : Failure) (s : State) : (raise f s).cfg = s.cfg := rfl
@[simp] theorem raise_tstate (f : Failure) (s : State) : (raise f s).tstate = s.tstate := rfl
@[simp] theorem raise_fifoMode (f : Failure) (s : State) : (raise f s).fifoMode = s.fifoMode := rfl
@[simp] theorem raise_ready (f : Failure) (s : State) : (raise f s).ready = s.ready := rfl
@[simp] theorem raise_fault (f : Failure) (s : State) : (raise f s).fault = some f := rfl
@[simp] theorem raise_transport (f : Failure) (s : State) :
    (raise f s).transport = s.transport := rfl
@[simp] theorem raise_lineA (f : Failure) (s : State) : (raise f s).lineA = s.lineA := rfl
@[simp] theorem raise_lineB (f : Failure) (s : State) : (raise f s).lineB = s.lineB := rfl
@[simp] theorem raise_trace (f : Failure) (s : State) : (raise f s).trace = s.trace := rfl
@[simp] theorem raise_cursor (f : Failure) (s : State) : (raise f s).cursor = s.cursor := rfl
@[simp] theorem raise_remaining (f : Failure) (s : State) :
    (raise f s).remaining = s.remaining := rfl
@[simp] theorem raise_busy (f : Failure) (s : State) : (raise f s).busy = false := rfl
@[simp] theorem raise_env (f : Failure) (s : State) : (raise f s).env = s.env := rfl
@[simp] theorem raise_host (f : Failure) (s : State) : (raise f s).host = s.host := rfl
@[simp] theorem raise_reply (f : Failure) (s : State) : (raise f s).reply = some (.failed f) := rfl

/-! ## `issued` -/

@[simp] theorem issued_par (s : State) : (issued s).par = s.par := rfl
@[simp] theorem issued_cfg (s : State) : (issued s).cfg = s.cfg := rfl
@[simp] theorem issued_tstate (s : State) : (issued s).tstate = s.tstate := rfl
@[simp] theorem issued_fifoMode (s : State) : (issued s).fifoMode = s.fifoMode := rfl
@[simp] theorem issued_ready (s : State) : (issued s).ready = s.ready := rfl
@[simp] theorem issued_fault (s : State) : (issued s).fault = s.fault := rfl
@[simp] theorem issued_transport (s : State) : (issued s).transport = s.transport := rfl
@[simp] theorem issued_lineA (s : State) : (issued s).lineA = s.lineA := rfl
@[simp] theorem issued_lineB (s : State) : (issued s).lineB = s.lineB := rfl
@[simp] theorem issued_trace (s : State) : (issued s).trace = s.trace := rfl
@[simp] theorem issued_cursor (s : State) : (issued s).cursor = s.cursor := rfl
@[simp] theorem issued_remaining (s : State) : (issued s).remaining = s.remaining := rfl
@[simp] theorem issued_busy (s : State) : (issued s).busy = true := rfl
@[simp] theorem issued_env (s : State) : (issued s).env = s.env := rfl
@[simp] theorem issued_host (s : State) : (issued s).host = s.host := rfl
@[simp] theorem issued_reply (s : State) : (issued s).reply = none := rfl

/-! ## `completed` -/

@[simp] theorem completed_par (r : Reply) (s : State) : (completed r s).par = s.par := rfl
@[simp] theorem completed_cfg (r : Reply) (s : State) : (completed r s).cfg = s.cfg := rfl
@[simp] theorem completed_tstate (r : Reply) (s : State) : (completed r s).tstate = s.tstate := rfl
@[simp] theorem completed_fifoMode (r : Reply) (s : State) :
    (completed r s).fifoMode = s.fifoMode := rfl
@[simp] theorem completed_ready (r : Reply) (s : State) : (completed r s).ready = s.ready := rfl
@[simp] theorem completed_fault (r : Reply) (s : State) : (completed r s).fault = s.fault := rfl
@[simp] theorem completed_transport (r : Reply) (s : State) :
    (completed r s).transport = s.transport := rfl
@[simp] theorem completed_lineA (r : Reply) (s : State) : (completed r s).lineA = s.lineA := rfl
@[simp] theorem completed_lineB (r : Reply) (s : State) : (completed r s).lineB = s.lineB := rfl
@[simp] theorem completed_trace (r : Reply) (s : State) : (completed r s).trace = s.trace := rfl
@[simp] theorem completed_cursor (r : Reply) (s : State) : (completed r s).cursor = s.cursor := rfl
@[simp] theorem completed_remaining (r : Reply) (s : State) :
    (completed r s).remaining = s.remaining := rfl
@[simp] theorem completed_busy (r : Reply) (s : State) : (completed r s).busy = false := rfl
@[simp] theorem completed_env (r : Reply) (s : State) : (completed r s).env = s.env := rfl
@[simp] theorem completed_host (r : Reply) (s : State) : (completed r s).host = s.host := rfl
@[simp] theorem completed_reply (r : Reply) (s : State) : (completed r s).reply = some r := rfl

/-! ## `delivered` -/

@[simp] theorem delivered_par (ev : List Event) (rest : List WriteResult) (s : State) :
    (delivered ev rest s).par = s.par := rfl
@[simp] theorem delivered_cfg (ev : List Event) (rest : List WriteResult) (s : State) :
    (delivered ev rest s).cfg = s.cfg := rfl
@[simp] theorem delivered_tstate (ev : List Event) (rest : List WriteResult) (s : State) :
    (delivered ev rest s).tstate = s.tstate := rfl
@[simp] theorem delivered_fifoMode (ev : List Event) (rest : List WriteResult) (s : State) :
    (delivered ev rest s).fifoMode = s.fifoMode := rfl
@[simp] theorem delivered_ready (ev : List Event) (rest : List WriteResult) (s : State) :
    (delivered ev rest s).ready = s.ready := rfl
@[simp] theorem delivered_fault (ev : List Event) (rest : List WriteResult) (s : State) :
    (delivered ev rest s).fault = s.fault := rfl
@[simp] theorem delivered_transport (ev : List Event) (rest : List WriteResult) (s : State) :
    (delivered ev rest s).transport = s.transport := rfl
@[simp] theorem delivered_lineA (ev : List Event) (rest : List WriteResult) (s : State) :
    (delivered ev rest s).lineA = s.lineA := rfl
@[simp] theorem delivered_lineB (ev : List Event) (rest : List WriteResult) (s : State) :
    (delivered ev rest s).lineB = s.lineB := rfl
@[simp] theorem delivered_trace (ev : List Event) (rest : List WriteResult) (s : State) :
    (delivered ev rest s).trace = s.trace ++ ev := rfl
@[simp] theorem delivered_cursor (ev : List Event) (rest : List WriteResult) (s : State) :
    (delivered ev rest s).cursor = s.cursor := rfl
@[simp] theorem delivered_remaining (ev : List Event) (rest : List WriteResult) (s : State) :
    (delivered ev rest s).remaining = s.remaining := rfl
@[simp] theorem delivered_busy (ev : List Event) (rest : List WriteResult) (s : State) :
    (delivered ev rest s).busy = false := rfl
@[simp] theorem delivered_env (ev : List Event) (rest : List WriteResult) (s : State) :
    (delivered ev rest s).env = { s.env with writes := rest } := rfl
@[simp] theorem delivered_host (ev : List Event) (rest : List WriteResult) (s : State) :
    (delivered ev rest s).host = s.host := rfl
@[simp] theorem delivered_reply (ev : List Event) (rest : List WriteResult) (s : State) :
    (delivered ev rest s).reply = some .ok := rfl

/-! ## `waited` -/

@[simp] theorem waited_par (ms : Nat) (s : State) : (waited ms s).par = s.par := rfl
@[simp] theorem waited_cfg (ms : Nat) (s : State) : (waited ms s).cfg = s.cfg := rfl
@[simp] theorem waited_tstate (ms : Nat) (s : State) : (waited ms s).tstate = s.tstate := rfl
@[simp] theorem waited_fifoMode (ms : Nat) (s : State) : (waited ms s).fifoMode = s.fifoMode := rfl
@[simp] theorem waited_ready (ms : Nat) (s : State) : (waited ms s).ready = s.ready := rfl
@[simp] theorem waited_fault (ms : Nat) (s : State) : (waited ms s).fault = s.fault := rfl
@[simp] theorem waited_transport (ms : Nat) (s : State) :
    (waited ms s).transport = s.transport := rfl
@[simp] theorem waited_lineA (ms : Nat) (s : State) : (waited ms s).lineA = s.lineA := rfl
@[simp] theorem waited_lineB (ms : Nat) (s : State) : (waited ms s).lineB = s.lineB := rfl
@[simp] theorem waited_trace (ms : Nat) (s : State) : (waited ms s).trace = s.trace := rfl
@[simp] theorem waited_cursor (ms : Nat) (s : State) : (waited ms s).cursor = s.cursor := rfl
@[simp] theorem waited_remaining (ms : Nat) (s : State) :
    (waited ms s).remaining = s.remaining := rfl
@[simp] theorem waited_busy (ms : Nat) (s : State) : (waited ms s).busy = s.busy := rfl
@[simp] theorem waited_env (ms : Nat) (s : State) :
    (waited ms s).env = { s.env with clock := s.env.clock + ms } := rfl
@[simp] theorem waited_host (ms : Nat) (s : State) : (waited ms s).host = s.host := rfl
@[simp] theorem waited_reply (ms : Nat) (s : State) : (waited ms s).reply = s.reply := rfl

/-! ## `State.resetWith` (R26) -/

@[simp] theorem resetWith_par (par : Params) (cfg : RunConfig) (env : Env)
    (host : List HostAction) : (State.resetWith par cfg env host).par = par := rfl
@[simp] theorem resetWith_cfg (par : Params) (cfg : RunConfig) (env : Env)
    (host : List HostAction) : (State.resetWith par cfg env host).cfg = cfg := rfl
@[simp] theorem resetWith_tstate (par : Params) (cfg : RunConfig) (env : Env)
    (host : List HostAction) : (State.resetWith par cfg env host).tstate = .idle := rfl
@[simp] theorem resetWith_fifoMode (par : Params) (cfg : RunConfig) (env : Env)
    (host : List HostAction) : (State.resetWith par cfg env host).fifoMode = .normal := rfl
@[simp] theorem resetWith_ready (par : Params) (cfg : RunConfig) (env : Env)
    (host : List HostAction) : (State.resetWith par cfg env host).ready = false := rfl
@[simp] theorem resetWith_fault (par : Params) (cfg : RunConfig) (env : Env)
    (host : List HostAction) : (State.resetWith par cfg env host).fault = none := rfl
@[simp] theorem resetWith_transport (par : Params) (cfg : RunConfig) (env : Env)
    (host : List HostAction) : (State.resetWith par cfg env host).transport = .closed := rfl
@[simp] theorem resetWith_lineA (par : Params) (cfg : RunConfig) (env : Env)
    (host : List HostAction) : (State.resetWith par cfg env host).lineA = .high := rfl
@[simp] theorem resetWith_lineB (par : Params) (cfg : RunConfig) (env : Env)
    (host : List HostAction) : (State.resetWith par cfg env host).lineB = .high := rfl
@[simp] theorem resetWith_trace (par : Params) (cfg : RunConfig) (env : Env)
    (host : List HostAction) : (State.resetWith par cfg env host).trace = [] := rfl
@[simp] theorem resetWith_cursor (par : Params) (cfg : RunConfig) (env : Env)
    (host : List HostAction) : (State.resetWith par cfg env host).cursor = 0 := rfl
@[simp] theorem resetWith_remaining (par : Params) (cfg : RunConfig) (env : Env)
    (host : List HostAction) : (State.resetWith par cfg env host).remaining = 0 := rfl
@[simp] theorem resetWith_busy (par : Params) (cfg : RunConfig) (env : Env)
    (host : List HostAction) : (State.resetWith par cfg env host).busy = false := rfl
@[simp] theorem resetWith_env (par : Params) (cfg : RunConfig) (env : Env)
    (host : List HostAction) : (State.resetWith par cfg env host).env = env := rfl
@[simp] theorem resetWith_host (par : Params) (cfg : RunConfig) (env : Env)
    (host : List HostAction) : (State.resetWith par cfg env host).host = host := rfl
@[simp] theorem resetWith_reply (par : Params) (cfg : RunConfig) (env : Env)
    (host : List HostAction) : (State.resetWith par cfg env host).reply = none := rfl

end Sys2Proof.Machine
end

