-- ==== Sys2Proof/Laws/Ops.lean ====
section
/-! SUPPORT. What each shared operation can do, said once: the sequencing of statements, the primitives of
the transport, the register write, and how an operation ends. The provers cite these instead of
unfolding the operations. -/

namespace Sys2Proof.Machine

/-! ## Sequencing -/

@[simp] theorem andThen_go (s : State) (g : State → Flow) : (Flow.go s).andThen g = g s := rfl

@[simp] theorem andThen_halt (s : State) (g : State → Flow) :
    (Flow.halt s).andThen g = Flow.halt s := rfl

@[simp] theorem andThen_error (r : Refusal) (g : State → Flow) :
    Flow.andThen (.error r) g = .error r := rfl

theorem andThen_assoc (f : Flow) (g h : State → Flow) :
    (f.andThen g).andThen h = f.andThen fun s => (g s).andThen h := by
  cases f with
  | error r => rfl
  | ok p => rcases p with ⟨_ | _, s⟩ <;> rfl

/-- Everything a sequence can come to. -/
theorem andThen_ok {f : Flow} {g : State → Flow} {q : Progress} (h : f.andThen g = .ok q) :
    (∃ s, f = Flow.go s ∧ g s = .ok q) ∨ (∃ s, f = Flow.halt s ∧ q = ⟨false, s⟩) := by
  cases f with
  | error r => cases h
  | ok p =>
    rcases p with ⟨_ | _, s⟩
    · exact .inr ⟨s, rfl, by simpa [Flow.andThen] using h.symm⟩
    · exact .inl ⟨s, rfl, h⟩

theorem go_ok {s : State} {q : Progress} (h : Flow.go s = .ok q) : q = ⟨true, s⟩ := by
  cases h; rfl

theorem halt_ok {s : State} {q : Progress} (h : Flow.halt s = .ok q) : q = ⟨false, s⟩ := by
  cases h; rfl

/-! ## `require` and the status tests -/

theorem require_true {c : Bool} {r : Refusal} {s : State} (h : c = true) :
    require c r s = Flow.go s := by simp [require, h]

theorem require_false {c : Bool} {r : Refusal} {s : State} (h : c = false) :
    require c r s = .error r := by simp [require, h]

theorem require_ok {c : Bool} {r : Refusal} {s : State} {q : Progress}
    (h : require c r s = .ok q) : c = true ∧ q = ⟨true, s⟩ := by
  unfold require at h
  split at h
  · exact ⟨‹_›, go_ok h⟩
  · cases h

@[simp] theorem requireReady_true {s : State} (h : s.ready = true) :
    requireReady s = Flow.go s := require_true h

@[simp] theorem requireTState_eq {t : TState} {s : State} (h : s.tstate = t) :
    requireTState t s = Flow.go s := require_true (by simp [h])

@[simp] theorem requireNormalMode_eq {s : State} (h : s.fifoMode = .normal) :
    requireNormalMode s = Flow.go s := require_true (by simp [h])

@[simp] theorem requireOpen_eq {s : State} (h : s.transport = .opened) :
    requireOpen s = Flow.go s := require_true (by simp [h])

@[simp] theorem requireClosed_eq {s : State} (h : s.transport = .closed) :
    requireClosed s = Flow.go s := require_true (by simp [h])

theorem requireReady_false {s : State} (h : s.ready = false) :
    requireReady s = .error .notActivated := require_false h

theorem requireTState_ne {t : TState} {s : State} (h : s.tstate ≠ t) :
    requireTState t s = .error .wrongControllerState := require_false (by simp [h])

theorem requireNormalMode_ne {s : State} (h : s.fifoMode ≠ .normal) :
    requireNormalMode s = .error .fifoModeOn := require_false (by simp [h])

theorem requireOpen_ne {s : State} (h : s.transport ≠ .opened) :
    requireOpen s = .error .transportNotOpen := require_false (by simp [h])

theorem requireClosed_ne {s : State} (h : s.transport ≠ .closed) :
    requireClosed s = .error .transportNotClosed := require_false (by simp [h])

/-! ## The transport -/

theorem nextWrite_cons {e : Env} {r : WriteResult} {rest : List WriteResult}
    (h : e.writes = r :: rest) : e.nextWrite = (r, { e with writes := rest }) := by
  simp [Env.nextWrite, h]

theorem nextOpen_cons {e : Env} {r : OpenResult} {rest : List OpenResult}
    (h : e.opens = r :: rest) : e.nextOpen = (r, { e with opens := rest }) := by
  simp [Env.nextOpen, h]

/-- A transport write that succeeds (R91). -/
theorem transportWrite_succeeds {buf : List Byte} {s : State} {rest : List WriteResult}
    (ht : s.transport = .opened) (hf : s.fault = none) (hw : s.env.writes = .ok :: rest) :
    transportWrite buf s =
      Flow.go (emit (.write buf) { s with env := { s.env with writes := rest } }) := by
  simp [transportWrite, ht, hf, nextWrite_cons hw, written, Flow.go]

/-- A transport write that fails (R91, R152, R154). -/
theorem transportWrite_fails {buf : List Byte} {s : State} {rest : List WriteResult}
    (ht : s.transport = .opened) (hf : s.fault = none) (hw : s.env.writes = .fails :: rest) :
    transportWrite buf s = Flow.halt (raise .transportWrite
      (emit (.writeFailed buf) { s with env := { s.env with writes := rest } })) := by
  simp [transportWrite, ht, hf, nextWrite_cons hw, written, Flow.halt]

/-- A transport write that never completes (R182). -/
theorem transportWrite_never {buf : List Byte} {s : State} {rest : List WriteResult}
    (ht : s.transport = .opened) (hf : s.fault = none) (hw : s.env.writes = .never :: rest) :
    transportWrite buf s = Flow.halt { s with env := { s.env with writes := rest } } := by
  simp [transportWrite, ht, hf, nextWrite_cons hw, written, Flow.halt]

/-- Everything a transport write can come to: it needs an open transport and no failure, and then it
succeeds, fails, or never completes; the environment moves on to some `e`. -/
theorem transportWrite_ok {buf : List Byte} {s : State} {q : Progress}
    (h : transportWrite buf s = .ok q) :
    s.transport = .opened ∧ s.fault = none ∧ ∃ e : Env, e = (s.env.nextWrite).2 ∧
      (q = ⟨true, emit (.write buf) { s with env := e }⟩ ∨
       q = ⟨false, raise .transportWrite (emit (.writeFailed buf) { s with env := e })⟩ ∨
       q = ⟨false, { s with env := e }⟩) := by
  unfold transportWrite at h
  split at h
  · split at h
    · refine ⟨‹_›, ‹_›, _, rfl, ?_⟩
      cases hr : (s.env.nextWrite).1 <;> rw [hr] at h <;> cases h
      · exact .inl rfl
      · exact .inr (.inl rfl)
      · exact .inr (.inr rfl)
    · cases h
  · cases h

/-- What a drawn outcome leaves of the environment: the clock, the ticks and the device's answers are
as before. -/
theorem nextWrite_frame (e : Env) :
    (e.nextWrite).2.clock = e.clock ∧ (e.nextWrite).2.ticks = e.ticks ∧
      (e.nextWrite).2.opens = e.opens ∧ e.draws ≤ (e.nextWrite).2.draws := by
  unfold Env.nextWrite
  split <;> simp

theorem writeRegister_succeeds {a : RegAddr} {d : List Byte} {s : State}
    {rest : List WriteResult} (ht : s.transport = .opened) (hf : s.fault = none)
    (hw : s.env.writes = .ok :: rest) :
    writeRegister a d s =
      Flow.go (emit (burst s.par a d) { s with env := { s.env with writes := rest } }) :=
  transportWrite_succeeds ht hf hw

theorem delay_eq {ms : Nat} {s : State} (hf : s.fault = none) :
    delay ms s = Flow.go (emit (.delay ms) (waited ms s)) := by
  simp [delay, hf, waited]

theorem delay_ok {ms : Nat} {s : State} {q : Progress} (h : delay ms s = .ok q) :
    s.fault = none ∧ q = ⟨true, emit (.delay ms) (waited ms s)⟩ := by
  unfold delay at h
  split at h
  · exact ⟨‹_›, go_ok h⟩
  · cases h

theorem setLines_eq {a b : Level} {s : State} (ht : s.transport = .opened)
    (hf : s.fault = none) :
    setLines a b s = Flow.go (emit (.lines a b) { s with lineA := a, lineB := b }) := by
  simp [setLines, ht, hf]

theorem setLines_ok {a b : Level} {s : State} {q : Progress} (h : setLines a b s = .ok q) :
    s.transport = .opened ∧ s.fault = none ∧
      q = ⟨true, emit (.lines a b) { s with lineA := a, lineB := b }⟩ := by
  unfold setLines at h
  split at h
  · split at h
    · exact ⟨‹_›, ‹_›, go_ok h⟩
    · cases h
  · cases h

theorem closeTransport_ok {s : State} {q : Progress} (h : closeTransport s = .ok q) :
    s.transport = .opened ∧ s.fault = none ∧
      q = ⟨true, emit .closed { s with transport := .finished }⟩ := by
  unfold closeTransport at h
  split at h
  · split at h
    · exact ⟨‹_›, ‹_›, go_ok h⟩
    · cases h
  · cases h

/-- Everything `open()` can come to (R90, R151). -/
theorem openTransport_ok {s : State} {q : Progress} (h : openTransport s = .ok q) :
    s.transport = .closed ∧ s.fault = none ∧ ∃ e : Env, e = (s.env.nextOpen).2 ∧
      (q = ⟨true, emit .opened { s with transport := .opened, env := e }⟩ ∨
       q = ⟨false, raise .transportOpen { s with env := e }⟩) := by
  unfold openTransport at h
  split at h
  · split at h
    · refine ⟨‹_›, ‹_›, _, rfl, ?_⟩
      cases hr : (s.env.nextOpen).1 <;> rw [hr] at h <;> cases h
      · exact .inl rfl
      · exact .inr rfl
    · cases h
  · cases h

/-- What a drawn answer of the device leaves of the environment. -/
theorem nextOpen_frame (e : Env) :
    (e.nextOpen).2.clock = e.clock ∧ (e.nextOpen).2.ticks = e.ticks ∧
      (e.nextOpen).2.writes = e.writes ∧ e.draws ≤ (e.nextOpen).2.draws := by
  unfold Env.nextOpen
  split <;> simp

theorem closeTransport_eq {s : State} (ht : s.transport = .opened) (hf : s.fault = none) :
    closeTransport s = Flow.go (emit .closed { s with transport := .finished }) := by
  simp [closeTransport, ht, hf]

/-! ## How an operation ends -/

@[simp] theorem enter_eq {s : State} (h : Resting s) : enter s = Flow.go (issued s) := by
  simp [enter, h.1, h.2]

theorem enter_failed {s : State} (h : s.fault ≠ none) : enter s = .error .failureLatched := by
  simp [enter, h]

theorem enter_busy {s : State} (hf : s.fault = none) (h : s.busy = true) :
    enter s = .error .operationInProgress := by
  simp [enter, hf, h]

theorem enter_ok {s : State} {q : Progress} (h : enter s = .ok q) :
    Resting s ∧ q = ⟨true, issued s⟩ := by
  unfold enter at h
  split at h
  · split at h
    · exact ⟨⟨‹_›, ‹_›⟩, go_ok h⟩
    · cases h
  · cases h

@[simp] theorem conclude_go (r : Reply) (s : State) :
    conclude r (Flow.go s) = .next (completed r s) := rfl

@[simp] theorem conclude_halt (r : Reply) (s : State) : conclude r (Flow.halt s) = .next s := rfl

@[simp] theorem conclude_error (r : Reply) (e : Refusal) : conclude r (.error e) = .refused e :=
  rfl

/-- An admitted operation is its body's outcome. -/
theorem operation_eq {body : State → Flow} {s : State} (h : Resting s) :
    operation body s = conclude .ok (body (issued s)) := by
  simp [operation, enter_eq h]

/-- Everything an operation that answers a next state can come to: it was admitted, and its body ran
to its end or stopped. -/
theorem operation_next {body : State → Flow} {s t : State} (h : operation body s = .next t) :
    Resting s ∧ ((∃ u, body (issued s) = Flow.go u ∧ t = completed .ok u) ∨
      body (issued s) = Flow.halt t) := by
  unfold operation at h
  cases ha : enter s with
  | error r => rw [ha] at h; cases h
  | ok p =>
    obtain ⟨hr, rfl⟩ := enter_ok ha
    refine ⟨hr, ?_⟩
    rw [ha] at h
    change conclude .ok (body (issued s)) = .next t at h
    cases hb : body (issued s) with
    | error r => rw [hb] at h; cases h
    | ok p =>
      rw [hb] at h
      rcases p with ⟨_ | _, u⟩
      · cases h; exact .inr rfl
      · cases h; exact .inl ⟨u, rfl, rfl⟩

/-- No operation answers a fault. -/
theorem operation_ne_fault {body : State → Flow} {s : State} {r : Fault} :
    operation body s ≠ .fault r := by
  unfold operation conclude
  split <;> intro h <;> cases h

/-- A function of the encoder, admitted. -/
theorem function_eq {value : State → List Byte} {s : State} (h : Resting s) :
    function value s = .next { s with busy := false, reply := some (.bytes (value s)) } := by
  simp [function, enter_eq h, completed, issued]

/-! ## What every statement of an operation keeps -/

/-- `R s r t` holds between the state `s` a statement starts from and the state `t` it leaves; `r` says
whether the operation goes on from there. -/
def Keeps (R : State → Bool → State → Prop) (f : State → Flow) : Prop :=
  ∀ s q, f s = .ok q → R s q.running q.state

theorem keeps_go {R : State → Bool → State → Prop} {u : State → State}
    (h : ∀ s, R s true (u s)) : Keeps R fun s => Flow.go (u s) := by
  intro s q hq
  rw [go_ok hq]
  exact h s

theorem keeps_andThen {R : State → Bool → State → Prop}
    (htrans : ∀ a b r c, R a true b → R b r c → R a r c)
    {f g : State → Flow} (hf : Keeps R f) (hg : Keeps R g) :
    Keeps R fun s => (f s).andThen g := by
  intro s q h
  rcases andThen_ok h with ⟨u, hu, hq⟩ | ⟨u, hu, rfl⟩
  · exact htrans _ _ _ _ (hf s _ hu) (hg u q hq)
  · exact hf s _ hu

theorem keeps_require {R : State → Bool → State → Prop} (hrefl : ∀ a, R a true a)
    (c : State → Bool) (r : State → Refusal) : Keeps R fun s => require (c s) (r s) s := by
  intro s q h
  rw [(require_ok h).2]
  exact hrefl s

/-- An operation keeps what its body keeps, seen from the issue to the completion. -/
theorem operation_keeps {R : State → Bool → State → Prop} {body : State → Flow}
    (hb : Keeps R body) {s t : State} (h : operation body s = .next t) :
    Resting s ∧ ((∃ u, R (issued s) true u ∧ t = completed .ok u) ∨ R (issued s) false t) := by
  obtain ⟨hr, ⟨u, hu, rfl⟩ | hu⟩ := operation_next h
  · exact ⟨hr, .inl ⟨u, hb _ _ hu, rfl⟩⟩
  · exact ⟨hr, .inr (hb _ _ hu)⟩

end Sys2Proof.Machine
end

