-- ==== Sys2Proof/Laws/Flash.lean ====
section
/-! SUPPORT. What the internal steps and the bodies of the FlashProtocol controller do when the next
transport writes succeed: one lemma each, in one form, `ran`. -/

namespace Sys2Proof.Machine

/-- The state after statements that appended `events`, used the environment's writes up to `rest`, and
left the controller in `t` and the bus in `m`. -/
def ran (t : TState) (m : BusMode) (events : List Event) (rest : List WriteResult) (s : State) :
    State :=
  { s with
    tstate := t
    fifoMode := m
    trace := s.trace ++ events
    env := { s.env with writes := rest } }

@[simp] theorem ran_ran (t1 t2 : TState) (m1 m2 : BusMode) (e1 e2 : List Event)
    (r1 r2 : List WriteResult) (s : State) :
    ran t2 m2 e2 r2 (ran t1 m1 e1 r1 s) = ran t2 m2 (e1 ++ e2) r2 s := by
  simp [ran]

@[simp] theorem ran_par (t : TState) (m : BusMode) (e : List Event) (r : List WriteResult)
    (s : State) : (ran t m e r s).par = s.par := rfl

@[simp] theorem ran_tstate (t : TState) (m : BusMode) (e : List Event) (r : List WriteResult)
    (s : State) : (ran t m e r s).tstate = t := rfl

@[simp] theorem ran_fifoMode (t : TState) (m : BusMode) (e : List Event) (r : List WriteResult)
    (s : State) : (ran t m e r s).fifoMode = m := rfl

/-- The transport is open and no failure is latched: what every transmitting statement requires. -/
abbrev Live (s : State) : Prop := s.transport = .opened ∧ s.fault = none

theorem live_ran {t : TState} {m : BusMode} {e : List Event} {r : List WriteResult} {s : State}
    (h : Live s) : Live (ran t m e r s) := h

/-- Completing an operation whose statements left the controller and the bus as they were. -/
theorem completed_ran {e : List Event} {r : List WriteResult} {s : State} :
    completed .ok (ran s.tstate s.fifoMode e r (issued s)) = delivered e r s := rfl

theorem writeRegister_ran {a : RegAddr} {d : List Byte} {s : State} {rest : List WriteResult}
    (h : Live s) (hw : s.env.writes = .ok :: rest) :
    writeRegister a d s = Flow.go (ran s.tstate s.fifoMode [burst s.par a d] rest s) :=
  writeRegister_succeeds h.1 h.2 hw

theorem csLowStep_ran {s : State} {rest : List WriteResult} (h : Live s) (hs : s.tstate = .idle) (hm : s.fifoMode = .normal)
    (hw : s.env.writes = .ok :: rest) :
    csLowStep s = Flow.go (ran .cmdAsserted .normal [wCs s.par s.par.csLowVal] rest s) := by
  rw [csLowStep, requireTState_eq hs, andThen_go, requireNormalMode_eq hm, andThen_go,
    writeRegister_ran h hw, andThen_go, hm]
  rfl

theorem sendByte_ran {b : Byte} {s : State} {rest : List WriteResult}
    (h : Live s) (hs : s.tstate = .cmdAsserted)
    (hm : s.fifoMode = .normal) (hw : s.env.writes = .ok :: rest) :
    sendByte b s = Flow.go (ran .cmdAsserted .normal [wData s.par [b]] rest s) := by
  rw [sendByte, requireTState_eq hs, andThen_go, requireNormalMode_eq hm, andThen_go,
    writeRegister_ran h hw, hs, hm]
  rfl

theorem sendLastByte_ran {b : Byte} {next : Closing} {s : State} {rest : List WriteResult}
    (h : Live s) (hs : s.tstate = .cmdAsserted)
    (hm : s.fifoMode = .normal) (hw : s.env.writes = .ok :: rest) :
    sendLastByte b next s =
      Flow.go (ran (closingState next) .normal [wData s.par [b, 0x01]] rest s) := by
  rw [sendLastByte, requireTState_eq hs, andThen_go, requireNormalMode_eq hm, andThen_go,
    writeRegister_ran h hw, andThen_go, hm]
  rfl

theorem csHighStep_ran {next : Closing} {s : State} {rest : List WriteResult}
    (h : Live s) (hs : s.tstate = .cmdAsserted)
    (hm : s.fifoMode = .normal) (hw : s.env.writes = .ok :: rest) :
    csHighStep next s = Flow.go (ran (closingState next) .normal [wCs s.par 0x01] rest s) := by
  rw [csHighStep, requireTState_eq hs, andThen_go, requireNormalMode_eq hm, andThen_go,
    writeRegister_ran h hw, andThen_go, hm]
  rfl

theorem setBusMode_ran {m : BusMode} {s : State} {rest : List WriteResult}
    (h : Live s) (hw : s.env.writes = .ok :: rest) :
    setBusMode m s = Flow.go (ran s.tstate m
      [wExt s.par (match m with | .fifo => s.par.extModeFifoVal | .normal => s.par.extModeNormalVal)]
      rest s) := by
  unfold setBusMode
  rw [writeRegister_ran h hw, andThen_go]
  rfl

/-! ## Bodies -/

theorem singleOpcode_ran {op : Byte} {next : Closing} {s : State} {rest : List WriteResult}
    (h : Live s) (hs : s.tstate = .idle) (hm : s.fifoMode = .normal)
    (hw : s.env.writes = .ok :: .ok :: rest) :
    singleOpcode op next s =
      Flow.go (ran (closingState next) .normal (opcodeTrace s.par op) rest s) := by
  rw [singleOpcode, csLowStep_ran h hs hm hw, andThen_go, sendLastByte_ran (live_ran h) rfl rfl rfl,
    ran_ran, ran_par]
  rfl

theorem writeEnableBody_ran {s : State} {rest : List WriteResult}
    (h : Live s) (hs : s.tstate = .idle) (hm : s.fifoMode = .normal)
    (hw : s.env.writes = .ok :: .ok :: rest) :
    writeEnableBody s = Flow.go (ran .idle .normal (opcodeTrace s.par 0x06) rest s) :=
  singleOpcode_ran h hs hm hw

theorem unlockString_ran {s : State} {rest : List WriteResult} (h : Live s)
    (hs : s.tstate = .cmdAsserted) (hm : s.fifoMode = .normal)
    (hw : s.env.writes = .ok :: .ok :: .ok :: rest) :
    unlockString s = Flow.go (ran .idle .normal
      [wData s.par [0x01], wData s.par [0x00], wData s.par [0x00, 0x01]] rest s) := by
  rw [unlockString, sendByte_ran h hs hm hw, andThen_go, sendByte_ran (live_ran h) rfl rfl rfl,
    ran_ran, ran_par, andThen_go, sendLastByte_ran (live_ran h) rfl rfl rfl, ran_ran, ran_par]
  rfl

theorem unlockBody_ran {s : State} {rest : List WriteResult} (h : Live s)
    (hs : s.tstate = .idle) (hm : s.fifoMode = .normal)
    (hw : s.env.writes = .ok :: .ok :: .ok :: .ok :: rest) :
    unlockBody s = Flow.go (ran .idle .normal (unlockTrace s.par) rest s) := by
  rw [unlockBody, csLowStep_ran h hs hm hw, andThen_go, unlockString_ran (live_ran h) rfl rfl rfl,
    ran_ran, ran_par]
  rfl

theorem writeFifoBody_ran {a : RegAddr} {d : List Byte} {s : State} {rest : List WriteResult}
    (h : Live s) (hm : s.fifoMode = .normal)
    (hw : s.env.writes = .ok :: .ok :: .ok :: rest) :
    writeFifoBody a d s = Flow.go (ran s.tstate .normal (fifoTrace s.par a d) rest s) := by
  rw [writeFifoBody, requireNormalMode_eq hm, andThen_go, setBusMode_ran h hw, andThen_go,
    writeRegister_ran (live_ran h) rfl, ran_ran, ran_par, andThen_go,
    setBusMode_ran (live_ran h) rfl, ran_ran, ran_par]
  rfl

theorem sectorEraseSteps_ran {a : FlashAddr} {s : State} {rest : List WriteResult}
    (h : Live s) (hs : s.tstate = .cmdAsserted) (hm : s.fifoMode = .normal)
    (hw : s.env.writes = .ok :: .ok :: .ok :: .ok :: rest) :
    sectorEraseSteps a s = Flow.go (ran .programming .normal
      [wData s.par [0x20], wData s.par [addrHi a], wData s.par [addrMid a],
       wData s.par [addrLo a, 0x01]] rest s) := by
  rw [sectorEraseSteps, sendByte_ran h hs hm hw, andThen_go, sendAddress,
    sendByte_ran (live_ran h) rfl rfl rfl, ran_ran, ran_par, andThen_go,
    sendByte_ran (live_ran h) rfl rfl rfl, ran_ran, ran_par, andThen_go,
    sendLastByte_ran (live_ran h) rfl rfl rfl, ran_ran, ran_par]
  rfl

theorem sectorEraseBody_ran {a : FlashAddr} {s : State} {rest : List WriteResult}
    (h : Live s) (hs : s.tstate = .idle) (hm : s.fifoMode = .normal)
    (hw : s.env.writes = .ok :: .ok :: .ok :: .ok :: .ok :: .ok :: .ok :: rest) :
    sectorEraseBody a s =
      Flow.go (waited 300 (ran .idle .normal (sectorEraseTrace s.par a) rest s)) := by
  rw [sectorEraseBody, writeEnableBody_ran h hs hm hw, andThen_go,
    csLowStep_ran (live_ran h) rfl rfl rfl, ran_ran, ran_par, andThen_go,
    sectorEraseSteps_ran (live_ran h) rfl rfl rfl, ran_ran, ran_par,
    andThen_go, delay_eq (live_ran h).2, andThen_go]
  simp [moveTo, emit, waited, ran, sectorEraseTrace, tSectorEraseMs]

theorem programPageBody_ran {a : FlashAddr} {d : List Byte} {s : State}
    {rest : List WriteResult} (h : Live s) (hs : s.tstate = .idle) (hm : s.fifoMode = .normal)
    (hd : d.length ≤ 256)
    (hw : s.env.writes = .ok :: .ok :: .ok :: .ok :: .ok :: .ok :: .ok :: rest) :
    programPageBody a d s =
      Flow.go (waited 10 (ran .idle .normal (programPageTrace s.par a d) rest s)) := by
  have hp : require (decide (d.length ≤ pageChunk)) .pageTooLong s = Flow.go s :=
    require_true (by simp [pageChunk, hd])
  rw [programPageBody, hp, andThen_go, writeEnableBody_ran h hs hm hw, andThen_go,
    csLowStep_ran (live_ran h) rfl rfl rfl, ran_ran, ran_par, andThen_go, pageTransfer,
    writeFifoBody_ran (live_ran h) rfl rfl, ran_ran, ran_par, ran_tstate, andThen_go,
    csHighStep_ran (live_ran h) rfl rfl rfl, ran_ran, ran_par, andThen_go,
    delay_eq (live_ran h).2, andThen_go]
  simp [moveTo, emit, waited, ran, programPageTrace, pageProgramString, tPageProgramMs,
    fcPageProgram]

theorem softResetBody_ran {s : State} {rest : List WriteResult} (h : Live s) (hs : s.tstate = .idle) (hw : s.env.writes = .ok :: rest) :
    softResetBody s =
      Flow.go { ran s.tstate s.fifoMode [wMcu s.par] rest s with ready := false } := by
  rw [softResetBody, requireTState_eq hs, andThen_go, writeRegister_ran h hw, andThen_go]
  rfl

theorem activeGate_eq {s : State} (ht : s.transport = .opened) (hr : s.ready = true) :
    activeGate s = Flow.go s := by
  rw [activeGate, requireOpen_eq ht, andThen_go, requireReady_true hr]

/-- Whatever else holds, what has the activation gate is refused before activation (R160). -/
theorem operation_activeGate_unready {body : State → Flow} {s : State} (hr : s.ready = false) :
    ∃ r, operation (fun s => (activeGate s).andThen body) s = .refused r := by
  cases h : operation (fun s => (activeGate s).andThen body) s with
  | refused r => exact ⟨r, rfl⟩
  | fault f => exact absurd h operation_ne_fault
  | next t =>
    have hR := (operation_next h).1
    rw [operation_eq hR, activeGate] at h
    by_cases ho : s.transport = .opened
    · rw [requireOpen_eq (s := issued s) ho, andThen_go,
        requireReady_false (s := issued s) hr] at h
      cases h
    · rw [requireOpen_ne (s := issued s) ho] at h
      cases h

/-- A soft reset that runs to its end leaves the controller idle and the block not activated. -/
theorem softResetBody_ok {s : State} {q : Progress} (h : softResetBody s = .ok q)
    (hq : q.running = true) : q.state.tstate = .idle ∧ q.state.ready = false := by
  rcases andThen_ok h with ⟨u, hu, h⟩ | ⟨u, _, rfl⟩
  · obtain ⟨hc, hp⟩ := require_ok hu
    cases hp
    rcases andThen_ok h with ⟨v, hv, h⟩ | ⟨v, _, rfl⟩
    · rw [go_ok h]
      obtain ⟨_, _, e, he, h⟩ := transportWrite_ok hv
      rcases h with h | h | h
      · cases h
        exact ⟨by simpa [he] using hc, rfl⟩
      · cases h
      · cases h
    · cases hq
  · cases hq

theorem flashGate_eq {s : State} (ht : s.transport = .opened) (hr : s.ready = true)
    (hs : s.tstate = .idle) : flashGate s = Flow.go s := by
  rw [flashGate, activeGate_eq ht hr, andThen_go, requireTState_eq hs]

end Sys2Proof.Machine
end

