-- ==== Sys2Proof/Laws/Frames.lean ====
section
/-! SUPPORT. What the statements of every operation keep: a relation that the primitive statements keep is
kept by every step and body built from them. Each lemma names the primitives its body uses, so a frame
follows by giving a relation and proving it of those. -/

namespace Sys2Proof.Machine

/-- `R` goes on through a sequence and is kept by a transport write. -/
structure Frame (R : State → Bool → State → Prop) : Prop where
  refl : ∀ s, R s true s
  trans : ∀ a b r c, R a true b → R b r c → R a r c
  write : ∀ buf, Keeps R (transportWrite buf)

/-- `R` is kept by a move of the controller state. -/
abbrev KeepsTState (R : State → Bool → State → Prop) : Prop :=
  ∀ t s, R s true { s with tstate := t }

/-- `R` is kept by a whole FIFO transfer: mode on, one burst, mode off. -/
abbrev KeepsFifo (R : State → Bool → State → Prop) : Prop := ∀ a d, Keeps R (writeFifoBody a d)

/-- `R` is kept by a delay. -/
abbrev KeepsDelay (R : State → Bool → State → Prop) : Prop := ∀ ms, Keeps R (delay ms)

/-- `R` is kept by the end of activation. -/
abbrev KeepsReady (R : State → Bool → State → Prop) : Prop :=
  ∀ s, R s true { s with ready := false }

/-- `R` is kept when the clock moves on, ticks are used up and free values are drawn; and it may stand
still there. -/
abbrev KeepsClock (R : State → Bool → State → Prop) : Prop :=
  ∀ s ts c n r, s.env.clock ≤ c → s.env.draws ≤ n →
    R s r { s with env := { s.env with ticks := ts, clock := c, draws := n } }

/-- `R` is kept when the cursor starts on an image that is short enough. -/
abbrev KeepsStart (R : State → Bool → State → Prop) : Prop :=
  ∀ n s, n ≤ imageLimit → R s true { s with cursor := 0, remaining := n }

/-- `R` is kept when the cursor moves on by a chunk. -/
abbrev KeepsAdvance (R : State → Bool → State → Prop) : Prop := Keeps R advanceCursor

variable {R : State → Bool → State → Prop}

namespace Frame

theorem seq (hR : Frame R) {f g : State → Flow} (hf : Keeps R f) (hg : Keeps R g) :
    Keeps R fun s => (f s).andThen g :=
  keeps_andThen hR.trans hf hg

theorem check (hR : Frame R) (c : State → Bool) (r : State → Refusal) :
    Keeps R fun s => require (c s) (r s) s :=
  keeps_require hR.refl c r

theorem writeRegister (hR : Frame R) (a : State → RegAddr) (d : State → List Byte) :
    Keeps R fun s => Sys2Proof.Machine.writeRegister (a s) (d s) s :=
  fun s q h => hR.write _ s q h

theorem requireTState (hR : Frame R) (t : TState) : Keeps R (Sys2Proof.Machine.requireTState t) :=
  hR.check _ _

theorem requireNormalMode (hR : Frame R) : Keeps R Sys2Proof.Machine.requireNormalMode :=
  hR.check _ _

theorem requireOpen (hR : Frame R) : Keeps R Sys2Proof.Machine.requireOpen := hR.check _ _

theorem activeGate (hR : Frame R) : Keeps R Sys2Proof.Machine.activeGate :=
  hR.seq hR.requireOpen (hR.check _ _)

theorem flashGate (hR : Frame R) : Keeps R Sys2Proof.Machine.flashGate :=
  hR.seq hR.activeGate (hR.requireTState .idle)

theorem moveTo (hT : KeepsTState R) (t : TState) : Keeps R (Sys2Proof.Machine.moveTo t) :=
  keeps_go (hT t)

theorem bracket (hR : Frame R) (t : TState) :
    Keeps R fun s => (Sys2Proof.Machine.requireTState t s).andThen
      Sys2Proof.Machine.requireNormalMode :=
  hR.seq (hR.requireTState t) hR.requireNormalMode

theorem csLowStep (hR : Frame R) (hT : KeepsTState R) : Keeps R Sys2Proof.Machine.csLowStep :=
  hR.seq (hR.bracket .idle)
    (hR.seq (hR.writeRegister (fun s => s.par.regFlashCs) fun s => [s.par.csLowVal])
      (moveTo hT _))

theorem sendByte (hR : Frame R) (b : Byte) : Keeps R (Sys2Proof.Machine.sendByte b) :=
  hR.seq (hR.bracket .cmdAsserted) (hR.writeRegister (fun s => s.par.regFlashData) fun _ => [b])

theorem sendLastByte (hR : Frame R) (hT : KeepsTState R) (b : Byte) (n : Closing) :
    Keeps R (Sys2Proof.Machine.sendLastByte b n) :=
  hR.seq (hR.bracket .cmdAsserted)
    (hR.seq (hR.writeRegister (fun s => s.par.regFlashData) fun _ => [b, csHighVal]) (moveTo hT _))

theorem csHighStep (hR : Frame R) (hT : KeepsTState R) (n : Closing) :
    Keeps R (Sys2Proof.Machine.csHighStep n) :=
  hR.seq (hR.bracket .cmdAsserted)
    (hR.seq (hR.writeRegister (fun s => s.par.regFlashCs) fun _ => [csHighVal]) (moveTo hT _))

theorem singleOpcode (hR : Frame R) (hT : KeepsTState R) (op : Byte) (n : Closing) :
    Keeps R (Sys2Proof.Machine.singleOpcode op n) :=
  hR.seq (hR.csLowStep hT) (hR.sendLastByte hT op n)

theorem unlockString (hR : Frame R) (hT : KeepsTState R) : Keeps R Sys2Proof.Machine.unlockString :=
  hR.seq (hR.seq (hR.sendByte _) (hR.sendByte _)) (hR.sendLastByte hT _ _)

theorem unlockBody (hR : Frame R) (hT : KeepsTState R) : Keeps R Sys2Proof.Machine.unlockBody :=
  hR.seq (hR.csLowStep hT) (hR.unlockString hT)

theorem setBusMode (hR : Frame R) (hM : ∀ m s, R s true { s with fifoMode := m })
    (m : BusMode) : Keeps R (Sys2Proof.Machine.setBusMode m) :=
  hR.seq (hR.writeRegister (fun s => s.par.regExtMode) _) (keeps_go (hM m))

/-- A relation that does not look at the bus mode is kept by a FIFO transfer. -/
theorem writeFifoBody (hR : Frame R) (hM : ∀ m s, R s true { s with fifoMode := m }) :
    KeepsFifo R := fun a d =>
  hR.seq (hR.seq (hR.seq hR.requireNormalMode (hR.setBusMode hM _))
    (hR.writeRegister (fun _ => a) fun _ => d)) (hR.setBusMode hM _)

theorem pageTransfer (hM : KeepsFifo R) (a : FlashAddr) (d : List Byte) :
    Keeps R (Sys2Proof.Machine.pageTransfer a d) :=
  fun s q h => hM _ _ s q h

theorem sectorEraseSteps (hR : Frame R) (hT : KeepsTState R) (a : FlashAddr) :
    Keeps R (Sys2Proof.Machine.sectorEraseSteps a) :=
  hR.seq (hR.sendByte _) (hR.seq (hR.seq (hR.sendByte _) (hR.sendByte _)) (hR.sendLastByte hT _ _))

theorem sectorEraseBody (hR : Frame R) (hT : KeepsTState R) (hD : KeepsDelay R) (a : FlashAddr) :
    Keeps R (Sys2Proof.Machine.sectorEraseBody a) :=
  hR.seq (hR.seq (hR.seq (hR.seq (hR.singleOpcode hT _ _) (hR.csLowStep hT))
    (hR.sectorEraseSteps hT a)) (hD _)) (moveTo hT _)

theorem programPageBody (hR : Frame R) (hT : KeepsTState R) (hM : KeepsFifo R)
    (hD : KeepsDelay R) (a : FlashAddr) (d : List Byte) :
    Keeps R (Sys2Proof.Machine.programPageBody a d) :=
  hR.seq (hR.seq (hR.seq (hR.seq (hR.seq (hR.seq (hR.check _ _) (hR.singleOpcode hT _ _))
    (hR.csLowStep hT)) (pageTransfer hM a d)) (hR.csHighStep hT _)) (hD _)) (moveTo hT _)

theorem softResetBody (hR : Frame R) (hS : KeepsReady R) : Keeps R Sys2Proof.Machine.softResetBody :=
  hR.seq (hR.requireTState _)
    (hR.seq (hR.writeRegister (fun s => s.par.regMcuCtrl) fun _ => [mcuResetVal]) (keeps_go hS))

theorem settleBody (hR : Frame R) (hT : KeepsTState R) (hD : KeepsDelay R) (ms : Nat) :
    Keeps R (Sys2Proof.Machine.settleBody ms) :=
  hR.seq (hR.seq (hR.seq (hR.requireTState _) (hR.check _ _)) (hD _)) (moveTo hT _)

theorem cpuStop (hR : Frame R) : Keeps R Sys2Proof.Machine.cpuStop :=
  hR.writeRegister (fun s => s.par.regCpuStop) fun s => [s.par.cpuStopVal]

theorem cpuStops (hR : Frame R) : ∀ n, Keeps R (Sys2Proof.Machine.cpuStops n)
  | 0 => keeps_go hR.refl
  | n + 1 => hR.seq hR.cpuStop (hR.cpuStops n)

theorem floodFree (hR : Frame R) (hC : KeepsClock R) (deadline : Nat) :
    Keeps R (Sys2Proof.Machine.floodFree deadline) := by
  intro s q h
  refine hR.trans s _ _ _ (hC s s.env.ticks s.env.clock (s.env.draws + 1) true le_rfl
    (Nat.le_succ _)) ?_
  rcases andThen_ok h with ⟨u, hu, hq⟩ | ⟨u, hu, rfl⟩
  · refine hR.trans _ u _ _ (hR.cpuStops _ _ _ hu) ?_
    rw [go_ok hq]
    exact hC u u.env.ticks _ _ true (le_trans (le_max_left _ _) (Nat.le_add_right _ _))
      (Nat.le_succ _)
  · exact hR.cpuStops _ _ _ hu

theorem floodLoop (hR : Frame R) (hC : KeepsClock R) (deadline : Nat) :
    ∀ ts, Keeps R (Sys2Proof.Machine.floodLoop deadline ts)
  | [] => fun s q h =>
    hR.trans s _ _ _ (hC s [] s.env.clock s.env.draws true le_rfl le_rfl)
      (hR.floodFree hC deadline _ q h)
  | t :: ts => by
    intro s q h
    have hc := fun r => hC s ts (s.env.clock + tickMs t) s.env.draws r (Nat.le_add_right _ _) le_rfl
    simp only [Sys2Proof.Machine.floodLoop] at h
    split at h
    · split at h
      · rw [halt_ok h]
        exact hc false
      · exact hR.trans _ _ _ _ (hc true) (hR.seq hR.cpuStop (hR.floodLoop hC deadline ts) _ _ h)
    · rw [go_ok h]
      exact hc true

theorem flood (hR : Frame R) (hC : KeepsClock R) (dur : Nat) :
    Keeps R (Sys2Proof.Machine.flood dur) := by
  intro s q h
  refine hR.trans s { s with env := s.env.now } _ _ ?_ (hR.floodLoop hC _ _ _ _ h)
  unfold Env.now
  split
  · exact hC s _ _ s.env.draws true (Nat.le_add_right _ _) le_rfl
  · exact hC s s.env.ticks _ _ true (Nat.le_add_right _ _) (Nat.le_succ _)

/-- A relation that each statement of the reset pulse keeps is kept by the pulse. -/
theorem resetPulse (hR : Frame R) (hL : ∀ a b, Keeps R (setLines a b)) (hD : KeepsDelay R) :
    Keeps R Sys2Proof.Machine.resetPulse :=
  hR.seq (hR.seq (hL _ _) (hD _)) (hL _ _)

theorem activateBody (hR : Frame R) (hT : KeepsTState R) (hC : KeepsClock R)
    (hL : Keeps R Sys2Proof.Machine.resetPulse) (hS : KeepsReady R)
    (hA : ∀ s, R s true { s with ready := true }) : Keeps R Sys2Proof.Machine.activateBody :=
  hR.seq (hR.seq (hR.seq (hR.seq (hR.seq (hR.seq (hR.seq (hR.seq
    hR.requireOpen (hR.requireTState _)) hL) (hR.softResetBody hS))
    (fun s q h => hR.flood hC _ s q h))
    (hR.writeRegister (fun s => s.par.regSpeed) fun s => [s.par.speedVal])) hR.cpuStop)
    (hR.singleOpcode hT _ _)) (keeps_go hA)

theorem programPass (hR : Frame R) (hT : KeepsTState R) (hM : KeepsFifo R) (hD : KeepsDelay R)
    (image : Image) :
    Keeps R fun s => (eraseIfSectorStart s).andThen (programChunk image) := by
  refine hR.seq (fun s q h => ?_) (fun s q h => hR.programPageBody hT hM hD _ _ s q h)
  unfold eraseIfSectorStart at h
  split at h
  · exact hR.sectorEraseBody hT hD _ s q h
  · rw [go_ok h]
    exact hR.refl s

theorem programLoop (hR : Frame R) (hT : KeepsTState R) (hM : KeepsFifo R) (hD : KeepsDelay R)
    (hP : KeepsAdvance R) (image : Image) : ∀ n, Keeps R (Sys2Proof.Machine.programLoop image n)
  | 0 => keeps_go hR.refl
  | n + 1 => by
    intro s q h
    unfold Sys2Proof.Machine.programLoop at h
    split at h
    · rw [go_ok h]
      exact hR.refl s
    · exact hR.seq (hR.seq (hR.programPass hT hM hD image) hP)
        (hR.programLoop hT hM hD hP image n) s q h

theorem programOp (hR : Frame R) (hT : KeepsTState R) (hM : KeepsFifo R) (hD : KeepsDelay R)
    (hI : KeepsStart R) (hP : KeepsAdvance R) (hS : KeepsReady R) (image : Image) :
    Keeps R (Sys2Proof.Machine.programOp image) := by
  intro s q h
  rcases andThen_ok h with ⟨u, hu, hq⟩ | ⟨u, hu, rfl⟩
  · rcases andThen_ok hu with ⟨v, hv, hw⟩ | ⟨v, hv, hw⟩
    · obtain ⟨hc, hp⟩ := require_ok hw
      cases hp
      refine hR.trans _ _ _ _ (hR.flashGate _ _ hv) ?_
      exact hR.seq (fun s q h => hR.trans s _ _ _ (hI _ s (of_decide_eq_true hc))
        (hR.programLoop hT hM hD hP image _ _ q h)) (hR.softResetBody hS) _ q hq
    · cases hw
  · exact hR.seq hR.flashGate (hR.check _ _) _ _ hu

end Frame

/-- `R` is kept by every primitive there is. -/
structure WholeFrame (R : State → Bool → State → Prop) : Prop extends Frame R where
  tstate : KeepsTState R
  fifo : KeepsFifo R
  delay : KeepsDelay R
  clock : KeepsClock R
  pulse : Keeps R resetPulse
  restarted : KeepsReady R
  activated : ∀ s, R s true { s with ready := true }
  start : KeepsStart R
  advance : KeepsAdvance R
  opens : Keeps R openTransport
  closes : Keeps R closeTransport
  unreadable : ∀ s, R s false (raise .imageRead s)

theorem WholeFrame.sessionOp (hR : WholeFrame R) (image : Option Image) :
    Keeps R (Sys2Proof.Machine.sessionOp image) := by
  refine hR.toFrame.seq (hR.toFrame.check _ _) ?_
  cases image with
  | none =>
    intro s q h
    rw [halt_ok h]
    exact hR.unreadable s
  | some image =>
    have hF := hR.toFrame
    exact hF.seq (hF.seq (hF.seq (hF.seq (hF.seq (hF.seq hR.opens
      (hF.activateBody hR.tstate hR.clock hR.pulse hR.restarted hR.activated))
      (hF.unlockBody hR.tstate)) (hF.singleOpcode hR.tstate _ _))
      (fun s q h => hF.settleBody hR.tstate hR.delay _ s q h))
      (hF.programOp hR.tstate hR.fifo hR.delay hR.start hR.advance hR.restarted image)) hR.closes

/-- A function of the encoder that answers was admitted, and gave its bytes back. -/
theorem function_next {value : State → List Byte} {s t : State} (h : function value s = .next t) :
    Resting s ∧ t = { s with busy := false, reply := some (.bytes (value s)) } := by
  by_cases hr : Resting s
  · rw [function_eq hr] at h
    cases h
    exact ⟨hr, rfl⟩
  · unfold function at h
    cases ha : enter s with
    | error r => rw [ha] at h; cases h
    | ok p => exact absurd (enter_ok ha).1 hr

/-- Everything an instruction that answers a next state can come to, for a relation every primitive
keeps: it was admitted, and it completed, or stopped, or is a function of the encoder. -/
theorem exec_next (hR : WholeFrame R) {i : Instr} {s t : State} (h : exec i s = .next t) :
    Resting s ∧ ((∃ u, R (issued s) true u ∧ t = completed .ok u) ∨ R (issued s) false t ∨
      ∃ b, t = { s with busy := false, reply := some (.bytes b) }) := by
  have fn : ∀ value, function value s = .next t → Resting s ∧
      ((∃ u, R (issued s) true u ∧ t = completed .ok u) ∨ R (issued s) false t ∨
        ∃ b, t = { s with busy := false, reply := some (.bytes b) }) := fun value hv =>
    ⟨(function_next hv).1, .inr (.inr ⟨_, (function_next hv).2⟩)⟩
  have op : ∀ body, Keeps R body → operation body s = .next t → Resting s ∧
      ((∃ u, R (issued s) true u ∧ t = completed .ok u) ∨ R (issued s) false t ∨
        ∃ b, t = { s with busy := false, reply := some (.bytes b) }) := fun body hb ho =>
    ⟨(operation_keeps hb ho).1, (operation_keeps hb ho).2.imp id .inl⟩
  have hF := hR.toFrame
  cases i with
  | encode a d => exact fn (fun s => encodePacket s.par a d) h
  | bitFrame1 => exact fn (fun s => bitFrame s.par true) h
  | bitFrame0 => exact fn (fun s => bitFrame s.par false) h
  | terminator => exact fn (fun _ => termFrame) h
  | addressHeader a => exact fn (fun _ => header a) h
  | reservedOp code => cases h
  | writeReg a d => exact op _ (hF.writeRegister (fun _ => a) fun _ => d) h
  | writeEnable => exact op _ (hF.seq hF.flashGate (hF.singleOpcode hR.tstate _ _)) h
  | wakeUp => exact op _ (hF.seq hF.flashGate (hF.singleOpcode hR.tstate _ _)) h
  | eraseAll => exact op _ (hF.seq hF.flashGate (hF.singleOpcode hR.tstate _ _)) h
  | unlock => exact op _ (hF.seq hF.flashGate (hF.unlockBody hR.tstate)) h
  | writeFifoReg a d =>
    exact op _ (hF.seq (hF.seq hF.flashGate (hF.check _ _)) (hR.fifo a d)) h
  | sectorErase a => exact op _ (hF.seq hF.flashGate (hF.sectorEraseBody hR.tstate hR.delay a)) h
  | programPage a d =>
    exact op _ (hF.seq hF.flashGate (hF.programPageBody hR.tstate hR.fifo hR.delay a d)) h
  | softReset => exact op _ (hF.seq hF.requireOpen (hF.softResetBody hR.restarted)) h
  | settle ms => exact op _ (hF.settleBody hR.tstate hR.delay ms) h
  | activate =>
    exact op _ (hF.activateBody hR.tstate hR.clock hR.pulse hR.restarted hR.activated) h
  | program image =>
    exact op _ (hF.programOp hR.tstate hR.fifo hR.delay hR.start hR.advance hR.restarted image) h
  | session image => exact op _ (hR.sessionOp image) h
  | openPort => exact op _ hR.opens h
  | closePort => exact op _ hR.closes h
  | flashWriteEnable => exact op _ (hF.seq hF.activeGate (hF.sendLastByte hR.tstate _ _)) h
  | flashWakeUp => exact op _ (hF.seq hF.activeGate (hF.sendLastByte hR.tstate _ _)) h
  | flashEraseAll => exact op _ (hF.seq hF.activeGate (hF.sendLastByte hR.tstate _ _)) h
  | flashUnlock => exact op _ (hF.seq hF.activeGate (hF.sendByte _)) h
  | flashSectorErase => exact op _ (hF.seq hF.activeGate (hF.sendByte _)) h
  | flashPageProgram => exact op _ (hF.seq hF.activeGate (hF.sendByte _)) h
  | flashUnlockString => exact op _ (hF.seq hF.activeGate (hF.unlockString hR.tstate)) h
  | flashSectorEraseString a =>
    exact op _ (hF.seq hF.activeGate (hF.sectorEraseSteps hR.tstate a)) h
  | flashPageProgramPrefix a payload =>
    exact op _ (hF.seq (hF.seq (hF.seq hF.activeGate (hF.requireTState _)) (hF.check _ _))
      (Frame.pageTransfer hR.fifo a payload)) h
  | csLow => exact op _ (hF.seq hF.activeGate (hF.csLowStep hR.tstate)) h
  | csHigh n => exact op _ (hF.seq hF.activeGate (hF.csHighStep hR.tstate n)) h
  | mcuSoftReset => exact op _ (hF.seq hF.requireOpen (hF.softResetBody hR.restarted)) h

end Sys2Proof.Machine
end

