-- ==== Sys2Proof/Laws/PerInstr.lean ====
section
/-! SUPPORT. One lemma per instruction: the encoder writes every instruction in the format of its own
opcode-table row, whatever the parameters. -/

def Sys2Proof.Laws.EncodesInFormat.Statement (i : Sys2Proof.Instr) : Prop :=
  ∀ p : Sys2Proof.Params, (Sys2Proof.encode p i).select.format = i.format

theorem Sys2Proof.Laws.EncodesInFormat.encode (addr : Sys2Proof.RegAddr) (data : List Sys2Proof.Byte) :
    Sys2Proof.Laws.EncodesInFormat.Statement (Sys2Proof.Instr.encode addr data) := fun _ => rfl

theorem Sys2Proof.Laws.EncodesInFormat.writeReg (addr : Sys2Proof.RegAddr) (data : List Sys2Proof.Byte) :
    Sys2Proof.Laws.EncodesInFormat.Statement (Sys2Proof.Instr.writeReg addr data) := fun _ => rfl

theorem Sys2Proof.Laws.EncodesInFormat.writeEnable :
    Sys2Proof.Laws.EncodesInFormat.Statement Sys2Proof.Instr.writeEnable := fun _ => rfl

theorem Sys2Proof.Laws.EncodesInFormat.wakeUp :
    Sys2Proof.Laws.EncodesInFormat.Statement Sys2Proof.Instr.wakeUp := fun _ => rfl

theorem Sys2Proof.Laws.EncodesInFormat.eraseAll :
    Sys2Proof.Laws.EncodesInFormat.Statement Sys2Proof.Instr.eraseAll := fun _ => rfl

theorem Sys2Proof.Laws.EncodesInFormat.unlock :
    Sys2Proof.Laws.EncodesInFormat.Statement Sys2Proof.Instr.unlock := fun _ => rfl

theorem Sys2Proof.Laws.EncodesInFormat.writeFifoReg (addr : Sys2Proof.RegAddr) (data : List Sys2Proof.Byte) :
    Sys2Proof.Laws.EncodesInFormat.Statement (Sys2Proof.Instr.writeFifoReg addr data) := fun _ => rfl

theorem Sys2Proof.Laws.EncodesInFormat.sectorErase (addr : Sys2Proof.FlashAddr) :
    Sys2Proof.Laws.EncodesInFormat.Statement (Sys2Proof.Instr.sectorErase addr) := fun _ => rfl

theorem Sys2Proof.Laws.EncodesInFormat.programPage (addr : Sys2Proof.FlashAddr) (data : List Sys2Proof.Byte) :
    Sys2Proof.Laws.EncodesInFormat.Statement (Sys2Proof.Instr.programPage addr data) := fun _ => rfl

theorem Sys2Proof.Laws.EncodesInFormat.softReset :
    Sys2Proof.Laws.EncodesInFormat.Statement Sys2Proof.Instr.softReset := fun _ => rfl

theorem Sys2Proof.Laws.EncodesInFormat.settle (ms : Nat) :
    Sys2Proof.Laws.EncodesInFormat.Statement (Sys2Proof.Instr.settle ms) := fun _ => rfl

theorem Sys2Proof.Laws.EncodesInFormat.activate :
    Sys2Proof.Laws.EncodesInFormat.Statement Sys2Proof.Instr.activate := fun _ => rfl

theorem Sys2Proof.Laws.EncodesInFormat.program (image : Sys2Proof.Image) :
    Sys2Proof.Laws.EncodesInFormat.Statement (Sys2Proof.Instr.program image) := fun _ => rfl

theorem Sys2Proof.Laws.EncodesInFormat.session (image : Option Sys2Proof.Image) :
    Sys2Proof.Laws.EncodesInFormat.Statement (Sys2Proof.Instr.session image) := fun _ => rfl

theorem Sys2Proof.Laws.EncodesInFormat.openPort :
    Sys2Proof.Laws.EncodesInFormat.Statement Sys2Proof.Instr.openPort := fun _ => rfl

theorem Sys2Proof.Laws.EncodesInFormat.closePort :
    Sys2Proof.Laws.EncodesInFormat.Statement Sys2Proof.Instr.closePort := fun _ => rfl

theorem Sys2Proof.Laws.EncodesInFormat.reservedOp (code : BitVec 5) :
    Sys2Proof.Laws.EncodesInFormat.Statement (Sys2Proof.Instr.reservedOp code) := fun _ => rfl

theorem Sys2Proof.Laws.EncodesInFormat.flashWriteEnable :
    Sys2Proof.Laws.EncodesInFormat.Statement Sys2Proof.Instr.flashWriteEnable := fun _ => rfl

theorem Sys2Proof.Laws.EncodesInFormat.flashWakeUp :
    Sys2Proof.Laws.EncodesInFormat.Statement Sys2Proof.Instr.flashWakeUp := fun _ => rfl

theorem Sys2Proof.Laws.EncodesInFormat.flashEraseAll :
    Sys2Proof.Laws.EncodesInFormat.Statement Sys2Proof.Instr.flashEraseAll := fun _ => rfl

theorem Sys2Proof.Laws.EncodesInFormat.flashUnlock :
    Sys2Proof.Laws.EncodesInFormat.Statement Sys2Proof.Instr.flashUnlock := fun _ => rfl

theorem Sys2Proof.Laws.EncodesInFormat.flashSectorErase :
    Sys2Proof.Laws.EncodesInFormat.Statement Sys2Proof.Instr.flashSectorErase := fun _ => rfl

theorem Sys2Proof.Laws.EncodesInFormat.flashPageProgram :
    Sys2Proof.Laws.EncodesInFormat.Statement Sys2Proof.Instr.flashPageProgram := fun _ => rfl

theorem Sys2Proof.Laws.EncodesInFormat.flashUnlockString :
    Sys2Proof.Laws.EncodesInFormat.Statement Sys2Proof.Instr.flashUnlockString := fun _ => rfl

theorem Sys2Proof.Laws.EncodesInFormat.flashSectorEraseString (addr : Sys2Proof.FlashAddr) :
    Sys2Proof.Laws.EncodesInFormat.Statement (Sys2Proof.Instr.flashSectorEraseString addr) := fun _ => rfl

theorem Sys2Proof.Laws.EncodesInFormat.flashPageProgramPrefix (addr : Sys2Proof.FlashAddr) (payload : List Sys2Proof.Byte) :
    Sys2Proof.Laws.EncodesInFormat.Statement (Sys2Proof.Instr.flashPageProgramPrefix addr payload) := fun _ => rfl

theorem Sys2Proof.Laws.EncodesInFormat.bitFrame1 :
    Sys2Proof.Laws.EncodesInFormat.Statement Sys2Proof.Instr.bitFrame1 := fun _ => rfl

theorem Sys2Proof.Laws.EncodesInFormat.bitFrame0 :
    Sys2Proof.Laws.EncodesInFormat.Statement Sys2Proof.Instr.bitFrame0 := fun _ => rfl

theorem Sys2Proof.Laws.EncodesInFormat.terminator :
    Sys2Proof.Laws.EncodesInFormat.Statement Sys2Proof.Instr.terminator := fun _ => rfl

theorem Sys2Proof.Laws.EncodesInFormat.addressHeader (addr : Sys2Proof.RegAddr) :
    Sys2Proof.Laws.EncodesInFormat.Statement (Sys2Proof.Instr.addressHeader addr) := fun _ => rfl

theorem Sys2Proof.Laws.EncodesInFormat.csLow :
    Sys2Proof.Laws.EncodesInFormat.Statement Sys2Proof.Instr.csLow := fun _ => rfl

theorem Sys2Proof.Laws.EncodesInFormat.csHigh (next : Sys2Proof.Closing) :
    Sys2Proof.Laws.EncodesInFormat.Statement (Sys2Proof.Instr.csHigh next) := fun _ => rfl

theorem Sys2Proof.Laws.EncodesInFormat.mcuSoftReset :
    Sys2Proof.Laws.EncodesInFormat.Statement Sys2Proof.Instr.mcuSoftReset := fun _ => rfl
end

