-- ==== Sys2Proof/Laws/Sequencers.lean ====
section
/-! SUPPORT. What the parts of the sequencers do when the next transport writes succeed: the reset pulse,
the flood, and one pass of the programming loop. -/

namespace Sys2Proof.Machine

/-- The clock at `c` and the ticks used up to `ts`. -/
def ticked (ts : List Tick) (c : Nat) (s : State) : State :=
  { s with env := { s.env with ticks := ts, clock := c } }

theorem resetPulse_eq {s : State} (h : Live s) :
    resetPulse s = Flow.go { waited 100 s with
      lineA := .high
      lineB := .high
      trace := s.trace ++ [.lines .low .low, .delay 100, .lines .high .high] } := by
  rw [resetPulse, setLines_eq h.1 h.2, andThen_go, delay_eq (by exact h.2), andThen_go,
    setLines_eq (by exact h.1) (by exact h.2)]
  simp [emit, waited, tResetPulseMs]

theorem cpuStop_ran {s : State} {rest : List WriteResult} (h : Live s)
    (hw : s.env.writes = .ok :: rest) :
    cpuStop s = Flow.go (ran s.tstate s.fifoMode [wStop s.par] rest s) :=
  writeRegister_ran h hw

theorem floodLoop_ran (deadline last : Nat) (restT : List Tick) (restW : List WriteResult) :
    ∀ (before : List Nat) (s : State), Live s →
      s.env.writes = List.replicate before.length .ok ++ restW →
      (before = [] ∨ s.env.clock + before.sum < deadline) →
      deadline ≤ s.env.clock + before.sum + last →
      floodLoop deadline (before.map Tick.advance ++ .advance last :: restT) s =
        Flow.go (ticked restT (s.env.clock + before.sum + last)
          (ran s.tstate s.fifoMode (List.replicate before.length (wStop s.par)) restW s)) := by
  intro before
  induction before with
  | nil =>
    intro s h hw _ hl
    simp at hl hw
    rw [List.map_nil, List.nil_append, floodLoop]
    have : ¬ (s.env.clock + last < deadline) := by omega
    simp only [tickMs, this, if_false]
    simp [ticked, ran, ← hw]
  | cons b bs ih =>
    intro s h hw hb hl
    simp at hb hl
    rw [List.map_cons, List.cons_append, floodLoop]
    have : s.env.clock + b < deadline := by omega
    simp only [tickMs, this, if_true]
    rw [if_neg (by simp), cpuStop_ran (rest := List.replicate bs.length .ok ++ restW) (by exact h)
      (by show s.env.writes = _; rw [hw]; simp [List.replicate_succ]), andThen_go, ih]
    · simp [ticked, ran, List.replicate_succ, Nat.add_assoc]
    · exact h
    · rfl
    · right
      show s.env.clock + b + _ < _
      omega
    · show _ ≤ s.env.clock + b + _ + _
      omega

/-- A flood whose clock readings are given (R131). -/
theorem flood_ran {dur first last : Nat} {before : List Nat} {restT : List Tick}
    {restW : List WriteResult} {s : State} (h : Live s)
    (hc : FloodClock dur first before last restT s)
    (hw : s.env.writes = List.replicate before.length .ok ++ restW) :
    flood dur s = Flow.go (ticked restT (s.env.clock + first + before.sum + last)
      (ran s.tstate s.fifoMode (List.replicate before.length (wStop s.par)) restW s)) := by
  obtain ⟨ht, hb, hl⟩ := hc
  have hn : s.env.now = { s.env with
      ticks := before.map Tick.advance ++ .advance last :: restT
      clock := s.env.clock + first } := by
    simp [Env.now, ht, tickMs]
  simp only [flood, hn]
  rw [floodLoop_ran (restW := restW)]
  · rfl
  · exact h
  · exact hw
  · show before = [] ∨ s.env.clock + first + _ < s.env.clock + first + dur
    exact hb.imp id (by omega)
  · show s.env.clock + first + dur ≤ s.env.clock + first + _ + _
    omega

/-- The sector test by remainder (R136). -/
theorem startsSector_eq (c : Nat) : startsSector c = decide (c % 4096 = 0) := by
  unfold startsSector
  rw [show c &&& 0xFFF = c % 4096 by simpa using Nat.and_two_pow_sub_one_eq_mod c 12]

/-- The transport writes of the page at `c`, its sector's erase among them (R133). -/
def pageWrites (c : Nat) : Nat := if c % 4096 = 0 then 14 else 7

/-- The milliseconds waited for the page at `c` (R133). -/
def pageWaits (c : Nat) : Nat := if c % 4096 = 0 then 310 else 10

/-- One pass of the programming loop (R132). -/
theorem programPass_ran {image : Image} {s : State} {rest : List WriteResult} (h : Live s)
    (hs : s.tstate = .idle) (hm : s.fifoMode = .normal)
    (hw : s.env.writes = List.replicate (pageWrites s.cursor) .ok ++ rest) :
    ((eraseIfSectorStart s).andThen (programChunk image)).andThen advanceCursor =
      Flow.go { waited (pageWaits s.cursor) (ran .idle .normal
        (pageTrace s.par (s.cursor, imageSlice image s.cursor (chunkLen s.remaining))) rest s) with
        cursor := s.cursor + chunkLen s.remaining
        remaining := s.remaining - chunkLen s.remaining } := by
  have hd : (imageSlice image s.cursor (chunkLen s.remaining)).length ≤ 256 := by
    simp [imageSlice, chunkLen, pageChunk]
  have key : ∀ u : State, u.cursor = s.cursor → u.remaining = s.remaining → Live u →
      u.tstate = .idle → u.fifoMode = .normal →
      u.env.writes = .ok :: .ok :: .ok :: .ok :: .ok :: .ok :: .ok :: rest →
      programChunk image u = Flow.go (waited 10 (ran .idle .normal
        (programPageTrace u.par (flashAddrOf s.cursor)
          (imageSlice image s.cursor (chunkLen s.remaining))) rest u)) := by
    intro u h1 h2 h3 h4 h5 h6
    rw [programChunk, h1, h2]
    exact programPageBody_ran h3 h4 h5 hd h6
  unfold eraseIfSectorStart
  rw [startsSector_eq]
  by_cases hc : s.cursor % 4096 = 0
  · simp only [hc, decide_true, if_true]
    rw [sectorEraseBody_ran (rest := .ok :: .ok :: .ok :: .ok :: .ok :: .ok :: .ok :: rest) h hs hm
      (by rw [hw, pageWrites, if_pos hc]; rfl), andThen_go,
      key (waited 300 (ran _ _ _ _ s)) rfl rfl h rfl rfl rfl, andThen_go]
    simp [advanceCursor, waited, ran, pageTrace, hc, flashAddrOf, pageWaits, Nat.add_assoc]
  · simp only [hc, decide_false]
    rw [if_neg (by simp), andThen_go,
      key s rfl rfl h hs hm (by rw [hw, pageWrites, if_neg hc]; rfl), andThen_go]
    simp [advanceCursor, waited, ran, pageTrace, hc, flashAddrOf, pageWaits]

/-- An activation that runs to its end leaves the block activated (R130). -/
theorem activateBody_ok {s : State} {q : Progress} (h : activateBody s = .ok q)
    (hq : q.running = true) : q.state.ready = true := by
  rcases andThen_ok h with ⟨u, _, h⟩ | ⟨u, _, rfl⟩
  · rw [go_ok h]
  · cases hq

end Sys2Proof.Machine
end

