-- ==== Sys2Proof/Tests/Slice0.lean ====
section
/-! SUPPORT. Tests: the checks of WellFormed, words written out from 30_encoding.md, the vectors of
95_test_vectors.md ("V.." and "P.." below), and a witness of the premises of every obligation that has
any. -/

namespace Sys2Proof.Tests

open Sys2Proof Sys2Proof.Machine

/-! ## An instance and its states -/

/-- The illustration instance of 95_test_vectors.md (`PAD = 00`, `CS = 0x0D`, `D = 0x0C`,
`T_ERASE_ALL_MS = 3500`); the values the spec leaves open are picked here and in no definition. -/
def tp : Params where
  pad := #v[0, 0, 0, 0, 0, 0, 0, 0]
  regFlashCs := 0x00000D
  regFlashData := 0x00000C
  regExtMode := 0x000020
  regMcuCtrl := 0x00006F
  regCpuStop := 0x000602
  regSpeed := 0x0000B2
  csLowVal := 0x00
  extModeFifoVal := 0x80
  extModeNormalVal := 0x00
  cpuStopVal := 0x05
  speedVal := 0x02
  eraseAllMs := 3500
  maxDataLen := 260
  lineAName := "A"
  lineBName := "B"
  uart := ⟨8, .none, 2⟩

def tc : RunConfig := ⟨"port", 921600, 1000⟩

/-- S0 of 95_test_vectors.md: the reset state (R26), with given write outcomes. -/
def s0 (writes : List WriteResult) : State :=
  State.resetWith tp tc ⟨[], writes, [], 0, 0⟩ []

/-- `s0` with the transport open. -/
def sOpen (writes : List WriteResult) : State := { s0 writes with transport := .opened }

/-- S1 of 95_test_vectors.md: the state after a successful `activate`. -/
def s1 (writes : List WriteResult) : State := { sOpen writes with ready := true }

/-- `s1` in an open flash command. -/
def sCmd (writes : List WriteResult) : State := { s1 writes with tstate := .cmdAsserted }

/-- `n` writes that succeed. -/
def oks (n : Nat) : List WriteResult := List.replicate n .ok

/-- The next state an operation answers, if it does. -/
def ends (o : Host.Outcome State Fault Refusal) : Option State :=
  match o with
  | .next t => some t
  | .fault _ => none
  | .refused _ => none

/-- The name an operation is refused by, if it is. -/
def refusal (o : Host.Outcome State Fault Refusal) : Option Refusal :=
  match o with
  | .next _ => none
  | .fault _ => none
  | .refused r => some r

/-- The trace an operation leaves. -/
def traceOf (o : Host.Outcome State Fault Refusal) : Option (List Event) :=
  (ends o).map fun t => t.trace

/-- A frame string of 95_test_vectors.md with `PAD = 00`: one BitFrame per bit, then `T`. -/
def frames (bits : List Nat) : List Byte :=
  bits.flatMap (fun b => [if b = 1 then 0x80 else 0xFE, 0, 0, 0, 0, 0, 0, 0, 0, 0xFE]) ++
    [0x80, 0x80, 0x80, 0x80, 0x80, 0x80, 0x80, 0x80, 0x80, 0x80]

/-- `W(A, [..])` of 95_test_vectors.md. -/
def w (a : RegAddr) (d : List Byte) : Event := .write (encodePacket tp a d)

theorem test_instance_is_valid : tp.valid ∧ tp.meaningful := by decide

/-! ## WellFormed: an ill-formed term for each check -/

theorem test_wf_reserved_code :
    Instr.wf tp (.reservedOp 0x0F) = false ∧ Instr.wf tp (.reservedOp 0x10) = true := by decide

theorem test_wf_data_length :
    Instr.wf tp (.writeReg 0 (List.replicate 261 0)) = false ∧
      Instr.wf tp (.writeReg 0 (List.replicate 260 0)) = true := by decide +kernel

theorem test_wf_prefix_payload :
    Instr.wf tp (.flashPageProgramPrefix 0 (List.replicate 257 0)) = false ∧
      Instr.wf tp (.flashPageProgramPrefix 0 (List.replicate 256 0)) = true := by decide +kernel

/-! ## The encoder -/

/-- V1d. -/
theorem test_bit_frames :
    bitFrame tp true = [0x80, 0, 0, 0, 0, 0, 0, 0, 0, 0xFE] ∧
      bitFrame tp false = [0xFE, 0, 0, 0, 0, 0, 0, 0, 0, 0xFE] := by decide

/-- V4b to V4f. -/
theorem test_headers :
    header 0 = [0x5A, 0, 0, 0, 0] ∧ header 0xFFFFFF = [0x5A, 0xFF, 0xFF, 0xFF, 0] ∧
      header 0x123456 = [0x5A, 0x12, 0x34, 0x56, 0] ∧ header 0x100000 = [0x5A, 0x10, 0, 0, 0] := by
  decide

/-- V2. -/
theorem test_encode_V2 : encodePacket tp 0x0D [0x00] = frames
    [0,1,0,1,1,0,1,0, 0,0,0,0,0,0,0,0, 0,0,0,0,0,0,0,0, 0,0,0,0,1,1,0,1,
     0,0,0,0,0,0,0,0, 0,0,0,0,0,0,0,0] := by decide +kernel

/-- V5d: data bytes equal to the marker values. -/
theorem test_encode_V5d : encodePacket tp 0x123456 [0x80, 0xFE] = frames
    [0,1,0,1,1,0,1,0, 0,0,0,1,0,0,1,0, 0,0,1,1,0,1,0,0, 0,1,0,1,0,1,1,0,
     0,0,0,0,0,0,0,0, 1,0,0,0,0,0,0,0, 1,1,1,1,1,1,1,0] := by decide +kernel

/-- V11. -/
theorem test_receive_V11 : receive (encodePacket tp 0x123456 [0x80, 0xFE]) =
    some (0x123456, [0x80, 0xFE]) := by decide +kernel

/-- V13 to V16: what the receiver rejects. -/
theorem test_receive_rejects :
    receive ((encodePacket tp 0x0D [0]).take 489) = none ∧
    receive ((encodePacket tp 0x0D [0]).take 480) = none ∧
    receive ((encodePacket tp 0x0D [0]).set 9 0x80) = none ∧
    receive ((encodePacket tp 0x0D [0]).set 0 0x00) = none := by decide +kernel

/-- V17, V18. -/
theorem test_receive_rejects_frames :
    receive ((encodePacket tp 0x0D [0]).drop 10) = none ∧
    receive (frames (List.replicate 40 1)) = none := by decide +kernel

/-! ## Decoding: words written out from the spec's encodings

Operation-select codes from R60, five bits; opcodes and strings from R55 to R58; frames from R50, R51;
the header from R53; control values from R59. -/

theorem test_decode_op_no_operand :
    decode tp { select := .opSelect 0b00010 } = .ok .writeEnable ∧
    decode tp { select := .opSelect 0b00011 } = .ok .wakeUp ∧
    decode tp { select := .opSelect 0b00100 } = .ok .eraseAll ∧
    decode tp { select := .opSelect 0b00101 } = .ok .unlock ∧
    decode tp { select := .opSelect 0b01001 } = .ok .softReset ∧
    decode tp { select := .opSelect 0b01011 } = .ok .activate ∧
    decode tp { select := .opSelect 0b01110 } = .ok .openPort ∧
    decode tp { select := .opSelect 0b01111 } = .ok .closePort := by decide

theorem test_decode_op_operands :
    decode tp { select := .opSelect 0b00000, addr := 0x00000D, data := [0x00] } =
      .ok (.encode 0x00000D [0x00]) ∧
    decode tp { select := .opSelect 0b00001, addr := 0x00000C, data := [0x06, 0x01] } =
      .ok (.writeReg 0x00000C [0x06, 0x01]) ∧
    decode tp { select := .opSelect 0b00110, addr := 0x00000C, data := [0x11, 0x22] } =
      .ok (.writeFifoReg 0x00000C [0x11, 0x22]) ∧
    decode tp { select := .opSelect 0b00111, addr := 0x001000 } = .ok (.sectorErase 0x001000) ∧
    decode tp { select := .opSelect 0b01000, addr := 0x000100, data := [0xA5] } =
      .ok (.programPage 0x000100 [0xA5]) ∧
    decode tp { select := .opSelect 0b01010, ms := 3500 } = .ok (.settle 3500) := by decide

theorem test_decode_op_image :
    decode tp { select := .opSelect 0b01100, image := some [0xA5] } = .ok (.program [0xA5]) ∧
    decode tp { select := .opSelect 0b01100, image := none } = .error .programNeedsImage ∧
    decode tp { select := .opSelect 0b01101, image := some [0xA5] } =
      .ok (.session (some [0xA5])) ∧
    decode tp { select := .opSelect 0b01101, image := none } = .ok (.session none) := by decide

/-- R61 (a): the first and the last reserved code. -/
theorem test_decode_reserved :
    decode tp { select := .opSelect 0b10000 } = .ok (.reservedOp 0x10) ∧
    decode tp { select := .opSelect 0b11111 } = .ok (.reservedOp 0x1F) := by decide

theorem test_decode_data_too_long :
    decode tp { select := .opSelect 0b00001, data := List.replicate 261 0 } =
      .error .dataTooLong := by decide +kernel

theorem test_decode_flash_opcodes :
    decode tp { select := .flashOpcode 0b00000110 } = .ok .flashWriteEnable ∧
    decode tp { select := .flashOpcode 0b10101011 } = .ok .flashWakeUp ∧
    decode tp { select := .flashOpcode 0b01100000 } = .ok .flashEraseAll ∧
    decode tp { select := .flashOpcode 0b00000001 } = .ok .flashUnlock ∧
    decode tp { select := .flashOpcode 0b00100000 } = .ok .flashSectorErase ∧
    decode tp { select := .flashOpcode 0b00000010 } = .ok .flashPageProgram ∧
    decode tp { select := .flashOpcode 0b00000101 } = .error .unknownFlashOpcode := by decide

theorem test_decode_flash_strings :
    decode tp { select := .flashString [0b00000001, 0b00000000, 0b00000000] } =
      .ok .flashUnlockString ∧
    decode tp { select := .flashString [0b00100000, 0x12, 0x34, 0x56] } =
      .ok (.flashSectorEraseString 0x123456) ∧
    decode tp { select := .flashString [0b00000010, 0x12, 0x34, 0x56, 0xA5] } =
      .ok (.flashPageProgramPrefix 0x123456 [0xA5]) ∧
    decode tp { select := .flashString [0b10101011] } = .ok .flashWakeUp ∧
    decode tp { select := .flashString [0b00100000, 0x12, 0x34] } =
      .error .unknownFlashString := by decide

theorem test_decode_frames :
    decode tp { select := .frame [0b10000000, 1, 2, 3, 4, 5, 6, 7, 8, 0b11111110] } =
      .ok .bitFrame1 ∧
    decode tp { select := .frame [0b11111110, 1, 2, 3, 4, 5, 6, 7, 8, 0b11111110] } =
      .ok .bitFrame0 ∧
    decode tp { select := .frame (List.replicate 10 0b10000000) } = .ok .terminator ∧
    decode tp { select := .frame [0b10000000, 1, 2, 3, 4, 5, 6, 7, 8, 0b10000000] } =
      .error .badFrame := by decide

theorem test_decode_header :
    decode tp { select := .header [0b01011010, 0x12, 0x34, 0x56, 0b00000000] } =
      .ok (.addressHeader 0x123456) ∧
    decode tp { select := .header [0b01011011, 0x12, 0x34, 0x56, 0b00000000] } =
      .error .badHeader := by decide

theorem test_decode_control_values :
    decode tp { select := .csValue 0b00000000 } = .ok .csLow ∧
    decode tp { select := .csValue 0b00000001, next := .toProgramming } =
      .ok (.csHigh .toProgramming) ∧
    decode tp { select := .csValue 0b00000010 } = .error .unknownCsValue ∧
    decode tp { select := .mcuValue 0b00100000 } = .ok .mcuSoftReset ∧
    decode tp { select := .mcuValue 0b00100001 } = .error .unknownMcuValue := by decide

/-- The words of spec/opcode_table.json, on the parameters behind the reset state. -/
theorem test_table_words :
    decodeTableWord 8 0x00 = some (.encode 0 []) ∧ decodeTableWord 8 0x10 = some (.reservedOp 16) ∧
    decodeTableWord 8 0x60 = some .flashEraseAll ∧
    decodeTableWord 24 0x010000 = some .flashUnlockString ∧
    decodeTableWord 32 0x20000000 = some (.flashSectorEraseString 0) ∧
    decodeTableWord 40 0x5A00000000 = some (.addressHeader 0) ∧
    decodeTableWord 80 0xFE0000000000000000FE = some .bitFrame0 := by decide

/-! ## The step from reset -/

/-- The first step after reset runs the instruction that was placed. -/
theorem test_first_step_runs_the_word :
    step (State.reset.withFetchWord 40 0x5A12345600) =
      .next { State.reset with reply := some (.bytes [0x5A, 0x12, 0x34, 0x56, 0x00]) } := rfl

/-- With nothing placed the block waits (R170). -/
theorem test_reset_waits : step State.reset = .next State.reset := rfl

/-- R188: a reset of the host clears a latched failure; R4: it cannot change the baud rate. -/
theorem test_reset_clears_the_failure :
    ends (step { s0 [] with
        fault := some .imageRead, host := [.reset ⟨"port", 9600, 1000⟩] }) = some (s0 []) := by
  decide

/-- R150. -/
theorem test_failure_codes :
    [none, some .transportOpen, some .transportWrite, some .imageRead].map failureCode =
      [0, 1, 2, 3] := by decide

/-! ## Transport and register write -/

/-- V20a. -/
theorem test_open_V20a :
    ends (exec .openPort { s0 [] with env := ⟨[.opened], [], [], 0, 0⟩ }) =
      some { sOpen [] with trace := [.opened], reply := some .ok } := by decide

/-- V20b. -/
theorem test_open_V20b :
    ends (exec .openPort { s0 [] with env := ⟨[.refused], [], [], 0, 0⟩ }) =
      some { s0 [] with
        fault := some .transportOpen, reply := some (.failed .transportOpen) } := by decide

/-- V20c. -/
theorem test_write_V20c :
    refusal (exec (.writeReg 0x0D [0]) (s0 [])) = some .transportNotOpen := by decide

/-- V20d. -/
theorem test_write_V20d :
    ends (exec (.writeReg 0x0D [0]) (sOpen (oks 1))) =
      some { sOpen [] with trace := [w 0x0D [0]], reply := some .ok } := by decide +kernel

/-- V20e, V20f. -/
theorem test_write_V20e :
    ∃ t, exec (.writeReg 0x0D [0]) (sOpen [.fails]) = .next t ∧
      t.fault = some .transportWrite ∧ t.transport = .opened ∧
      t.trace = [.writeFailed (encodePacket tp 0x0D [0])] ∧
      exec .closePort t = .refused .failureLatched := ⟨_, rfl, rfl, rfl, rfl, rfl⟩

/-- V20h, V20i. -/
theorem test_close_V20h :
    ends (exec .closePort (sOpen [])) =
      some { s0 [] with transport := .finished, trace := [.closed], reply := some .ok } ∧
    refusal (exec .openPort { s0 [] with transport := .finished }) = some .transportNotClosed := by
  decide

/-- V20j. -/
theorem test_encode_V20j :
    ends (exec (.encode 0x0D [0]) (sOpen [])) =
      some { sOpen [] with reply := some (.bytes (encodePacket tp 0x0D [0])) } := by
  decide +kernel

/-! ## FlashProtocol operations -/

/-- V21. -/
theorem test_write_enable_V21 :
    ends (exec .writeEnable (s1 (oks 2))) =
      some { s1 [] with
        trace := [w 0x0D [0], w 0x0C [0x06, 0x01]], reply := some .ok } := by decide +kernel

/-- V22. -/
theorem test_wake_up_V22 :
    traceOf (exec .wakeUp (s1 (oks 2))) = some [w 0x0D [0], w 0x0C [0xAB, 0x01]] := by
  decide +kernel

/-- V23. -/
theorem test_erase_all_V23 :
    ends (exec .eraseAll (s1 (oks 2))) =
      some { s1 [] with
        tstate := .programming
        trace := [w 0x0D [0], w 0x0C [0x60, 0x01]]
        reply := some .ok } := by decide +kernel

/-- V24, the source's scenario: four bursts. -/
theorem test_unlock_V24 :
    traceOf (exec .unlock (s1 (oks 4))) =
      some [w 0x0D [0], w 0x0C [0x01], w 0x0C [0x00], w 0x0C [0x00, 0x01]] := by decide +kernel

/-- V25. -/
theorem test_sector_erase_V25 :
    traceOf (exec (.sectorErase 0x001000) (s1 (oks 7))) =
      some [w 0x0D [0], w 0x0C [0x06, 0x01], w 0x0D [0], w 0x0C [0x20], w 0x0C [0x00],
        w 0x0C [0x10], w 0x0C [0x00, 0x01], .delay 300] := by decide +kernel

/-- V27. -/
theorem test_program_page_V27 :
    traceOf (exec (.programPage 0 [0xA5]) (s1 (oks 7))) =
      some [w 0x0D [0], w 0x0C [0x06, 0x01], w 0x0D [0], w 0x20 [0x80],
        w 0x0C [0x02, 0, 0, 0, 0xA5], w 0x20 [0x00], w 0x0D [0x01], .delay 10] := by
  decide +kernel

/-- V31. -/
theorem test_program_page_V31 :
    refusal (exec (.programPage 0 (List.replicate 257 0)) (s1 [])) = some .pageTooLong := by
  decide +kernel

/-- V32. -/
theorem test_write_fifo_V32 :
    ends (exec (.writeFifoReg 0x0C [0x11, 0x22]) (s1 (oks 3))) =
      some { s1 [] with
        trace := [w 0x20 [0x80], w 0x0C [0x11, 0x22], w 0x20 [0x00]], reply := some .ok } := by
  decide +kernel

/-- V33. -/
theorem test_write_fifo_V33 :
    refusal (exec (.writeFifoReg 0x20 [0]) (s1 [])) = some .fifoTargetsModeRegister := by decide

/-- V34. -/
theorem test_soft_reset_V34 :
    ends (exec .softReset (s1 (oks 1))) =
      some { sOpen [] with trace := [w 0x6F [0x20]], reply := some .ok } := by decide +kernel

/-- V35, V36, V38. -/
theorem test_refusals_V35 :
    refusal (exec .writeEnable { s1 [] with tstate := .programming }) = some .wrongControllerState ∧
    refusal (exec (.settle 3499) { s1 [] with tstate := .programming }) = some .settleTooShort ∧
    refusal (exec (.settle 3500) (s1 [])) = some .wrongControllerState := by decide

/-- V37. -/
theorem test_settle_V37 :
    ends (exec (.settle 3500) { s1 [] with tstate := .programming }) =
      some { s1 [] with
        trace := [.delay 3500], env := ⟨[], [], [], 3500, 0⟩, reply := some .ok } := by decide

/-- V39. -/
theorem test_gate_V39 : refusal (exec .writeEnable (sOpen [])) = some .notActivated := by decide

/-- V50, V51. -/
theorem test_write_enable_fails_V51 :
    ∃ t, exec .writeEnable (s1 [.ok, .fails]) = .next t ∧ t.tstate = .cmdAsserted ∧
      t.fault = some .transportWrite ∧
      t.trace = [w 0x0D [0], .writeFailed (encodePacket tp 0x0C [0x06, 0x01])] :=
  ⟨_, rfl, rfl, rfl, rfl⟩

/-- V53: no delay after the failure. -/
theorem test_sector_erase_fails_V53 :
    ∃ t, exec (.sectorErase 0) (s1 (oks 6 ++ [.fails])) = .next t ∧ t.tstate = .cmdAsserted ∧
      t.trace.length = 7 := ⟨_, rfl, rfl, rfl⟩

/-- V54. -/
theorem test_program_page_fails_V54 :
    ∃ t, exec (.programPage 0 [0xA5]) (s1 (oks 4 ++ [.fails])) = .next t ∧
      t.tstate = .cmdAsserted ∧ t.fifoMode = .fifo ∧ t.trace.length = 5 := ⟨_, rfl, rfl, rfl, rfl⟩

/-- V55. -/
theorem test_program_page_fails_V55 :
    ∃ t, exec (.programPage 0 [0xA5]) (s1 (oks 6 ++ [.fails])) = .next t ∧
      t.tstate = .cmdAsserted ∧ t.fifoMode = .normal ∧ t.trace.length = 7 :=
  ⟨_, rfl, rfl, rfl, rfl⟩

/-! ## The rows of the flash formats -/

/-- R55 by hand: chip-select low, then the opcode with chip-select high folded in, gives the bursts of
V21. -/
theorem test_flash_bracket :
    ends (exec .csLow (s1 (oks 1))) =
      some { sCmd [] with trace := [w 0x0D [0]], reply := some .ok } ∧
    ends (exec .flashWriteEnable (sCmd (oks 1))) =
      some { s1 [] with trace := [w 0x0C [0x06, 0x01]], reply := some .ok } ∧
    ends (exec (.csHigh .toProgramming) (sCmd (oks 1))) =
      some { s1 [] with
        tstate := .programming, trace := [w 0x0D [0x01]], reply := some .ok } := by decide +kernel

/-- R57: the sector-erase string of V25 in an open command. -/
theorem test_flash_sector_erase_string :
    ends (exec (.flashSectorEraseString 0x001000) (sCmd (oks 4))) =
      some { s1 [] with
        tstate := .programming
        trace := [w 0x0C [0x20], w 0x0C [0x00], w 0x0C [0x10], w 0x0C [0x00, 0x01]]
        reply := some .ok } := by decide +kernel

/-- R107: a byte of a command outside a bracket is refused. -/
theorem test_flash_byte_needs_a_bracket :
    refusal (exec .flashUnlock (s1 [])) = some .wrongControllerState := by decide

/-- R160: before activation no flash command can be opened. -/
theorem test_flash_step_needs_activation :
    refusal (exec .csLow (sOpen [])) = some .notActivated ∧
    refusal (exec .flashEraseAll (sOpen [])) = some .notActivated := by decide

/-! ## The sequencers -/

/-- V61, V64: the clock reads 0 for the deadline and then 0, 400, 800, 1200: three flood writes. -/
theorem test_activate_V61 :
    traceOf (exec .activate { sOpen (oks 8) with env := ⟨[], oks 8,
        [.advance 0, .advance 0, .advance 400, .advance 400, .advance 400], 0, 0⟩ }) =
      some [.lines .low .low, .delay 100, .lines .high .high, w 0x6F [0x20],
        w 0x602 [0x05], w 0x602 [0x05], w 0x602 [0x05], w 0xB2 [0x02], w 0x602 [0x05],
        w 0x0D [0], w 0x0C [0xAB, 0x01]] := by decide +kernel

/-- R182: a clock that has stopped never lets the flood end. -/
theorem test_activate_stopped_clock :
    ∃ t, exec .activate { sOpen (oks 8) with env := ⟨[], oks 8, [.advance 0, .stopped], 0, 0⟩ } =
      .next t ∧ t.busy = true ∧ step t = .fault .hung := ⟨_, rfl, rfl, rfl⟩

/-- V63: the second flood write fails. -/
theorem test_activate_V63 :
    ∃ t, exec .activate { sOpen [] with env := ⟨[], [.ok, .ok, .fails],
        [.advance 0, .advance 0, .advance 400], 0, 0⟩ } = .next t ∧
      t.ready = false ∧ t.fault = some .transportWrite ∧ t.lineA = .high ∧
      t.trace.length = 6 := ⟨_, rfl, rfl, rfl, rfl, rfl⟩

/-- V40, the row of length 1, by running the algorithm. -/
theorem test_program_one_byte :
    (ends (exec (.program [0xA5]) (s1 (oks 15)))).map (fun t =>
        (t.cursor, t.remaining, t.ready, burstCount t.trace, waitTotal t.trace)) =
      some (1, 0, false, 15, 310) := by decide +kernel

/-- V40, the row of length 0: only the soft reset. -/
theorem test_program_empty :
    traceOf (exec (.program []) (s1 (oks 1))) = some [w 0x6F [0x20]] := by decide +kernel

/-- E5: a 300-byte image is two pages, 256 bytes at 0x000000 and 44 at 0x000100, in one sector. -/
theorem test_pages_of_300 :
    (pagesOf (List.replicate 300 0)).map (fun page => (page.1, page.2.length)) =
      [(0, 256), (256, 44)] := by decide +kernel

/-- P3: 28 bursts, 3910 ms, the port closed. -/
theorem test_session_P3 :
    (ends (exec (.session (some [0xA5])) { s0 [] with env := ⟨[.opened], oks 28,
        [.advance 0, .advance 0, .advance 500, .advance 500], 0, 0⟩ })).map (fun t =>
        (t.transport, t.ready, t.cursor, burstCount t.trace, waitTotal t.trace)) =
      some (.finished, false, 1, 28, 3910) := by decide +kernel

/-- P4: the eighth burst of a session fails in `unlock`. -/
theorem test_session_P4 :
    (ends (exec (.session (some [0xA5])) { s0 [] with env := ⟨[.opened], oks 7 ++ [.fails],
        [.advance 0, .advance 1000], 0, 0⟩ })).map (fun t =>
        (t.fault, t.transport, t.ready, t.tstate, t.busy, t.trace.length)) =
      some (some .transportWrite, .opened, true, .cmdAsserted, false, 12) := by decide +kernel

/-- P5. -/
theorem test_session_P5 :
    ends (exec (.session none) (s0 [])) =
      some { s0 [] with fault := some .imageRead, reply := some (.failed .imageRead) } := by
  decide

/-! ## What the target receives -/

/-- R108, R115: the fold lands on chip-select, and the target gets the two strings of V25. -/
theorem test_target_sector_erase :
    commandsOf tp (sectorEraseTrace tp 0x001000) = [[0x06], [0x20, 0x00, 0x10, 0x00]] := by
  decide +kernel

/-- R116: the FIFO transfer of V27. -/
theorem test_target_program_page :
    commandsOf tp (programPageTrace tp 0 [0xA5]) = [[0x06], [0x02, 0, 0, 0, 0xA5]] := by
  decide +kernel

/-- R35, U3, U14: the last address the target tells apart, and what lies past it. -/
theorem test_target_landing :
    landing (some .normal) 0x0FFFFE 1 = some 0x0FFFFF ∧ landing (some .normal) 0x0FFFFF 1 = none ∧
    landing (some .fifo) 0x0FFFFF 1 = some 0x0FFFFF ∧ landing (some .normal) 0x100000 0 = none ∧
    landing (some .normal) 0xFFFFFF 1 = none := by decide

/-! ## Witnesses: a state and operands that meet the premises of each obligation

`witness_<Name>` belongs to `Obligations.<Name>`; where a statement has several clauses each has a
witness, at a boundary of its range where it has one. -/

theorem witness_PacketLayout : (header 0xFFFFFF ++ [0x80])[5]? = some 0x80 := by decide

/-- The longest data the port of `tp` carries, the largest address, the first reserved code. -/
theorem witness_DecodeOfEncode :
    tp.valid ∧ Instr.wf tp (.writeReg 0xFFFFFF (List.replicate 260 0xFF)) = true ∧
      Instr.wf tp (.reservedOp 0x10) = true ∧
      Instr.wf tp (.flashPageProgramPrefix 0xFFFFFF (List.replicate 256 0xFF)) = true := by
  decide +kernel

theorem witness_DecodedIsWellFormed :
    decode tp { select := .opSelect 0x1F } = .ok (.reservedOp 0x1F) := by decide

theorem witness_StepRunsTheIssuedInstruction :
    ({ s0 [] with host := [.issue { select := .opSelect 0x0E }] } : State).host =
      [.issue { select := .opSelect 0x0E }] ∧
    decode tp { select := .opSelect 0x0E } = .ok .openPort ∧
    decode tp { select := .flashOpcode 0x05 } = .error .unknownFlashOpcode := by decide

theorem witness_IdleBlockWaits :
    (s0 []).host = [] ∧ (s0 []).busy = false ∧ ({ s0 [] with busy := true } : State).busy = true := by
  decide

theorem witness_HostResetRestoresResetValues :
    ({ s1 [] with host := [.reset tc] } : State).host = [.reset tc] ∧ (s1 []).busy = false ∧
      ({ s1 [] with busy := true } : State).busy = true := by decide

theorem witness_EncodeReturnsThePacket : Resting (s0 []) := by decide

theorem witness_FormatFunctionsReturnTheirBytes : Resting (s0 []) := by decide

theorem witness_OpenOpensTheTransport :
    Resting (s0 []) ∧ (s0 []).transport = .closed ∧
      ({ s0 [] with env := ⟨[.opened], [], [], 0, 0⟩ } : State).env.opens = .opened :: [] := by
  decide

/-- A reset state of the instance meets the invariant, whatever its environment and its host. -/
theorem inv_resetWith (e : Env) (host : List HostAction) :
    Inv (State.resetWith tp tc e host) where
  failed_not_busy := fun _ => rfl
  resting_normal := fun _ _ => rfl
  baud_fixed := rfl
  unready_idle := fun _ _ _ => rfl
  lines_high := ⟨rfl, rfl⟩
  closed_untouched := fun _ => ⟨rfl, rfl, rfl, rfl⟩
  opened_once := rfl
  closed_once := rfl
  write_failure := fun h => by cases h
  no_silent_failure := fun _ _ h => by cases h
  early_failure := fun h => by rcases h with h | h <;> cases h
  busy_connected := fun h => by cases h
  cursor_aligned := fun h => absurd rfl h
  cursor_bounded := Nat.zero_le _

theorem witness_OpenFailureIsLatched :
    Inv (State.resetWith tp tc ⟨[.refused], [], [], 0, 0⟩ []) ∧
      Resting (State.resetWith tp tc ⟨[.refused], [], [], 0, 0⟩ []) ∧
      (State.resetWith tp tc ⟨[.refused], [], [], 0, 0⟩ []).transport = .closed ∧
      (State.resetWith tp tc ⟨[.refused], [], [], 0, 0⟩ []).env.opens = .refused :: [] :=
  ⟨inv_resetWith _ _, ⟨rfl, rfl⟩, rfl, rfl⟩

theorem witness_OpenOnlyOnce :
    Resting (sOpen []) ∧ (sOpen []).transport ≠ .closed ∧
      Resting { s0 [] with transport := .finished } := by decide

theorem witness_WriteRegIsOneBurst :
    Connected (sOpen [.ok]) ∧ (sOpen [.ok]).env.writes = .ok :: [] ∧
      Connected (sOpen [.fails]) ∧ (sOpen [.fails]).env.writes = .fails :: [] := by decide

theorem witness_UnfinishedWriteHangs :
    Connected (sOpen [.never]) ∧ (sOpen [.never]).env.writes = .never :: [] := by decide

theorem witness_CloseIsFinal : Connected (sOpen []) := by decide

theorem witness_WriteEnableAndWakeUpComplete :
    FlashReady (s1 (oks 2)) ∧ WritesSucceed 2 [] (s1 (oks 2)) := by decide

theorem witness_EraseAllLeavesProgramming :
    FlashReady (s1 (oks 2)) ∧ WritesSucceed 2 [] (s1 (oks 2)) := by decide

theorem witness_UnlockIsFourBursts :
    FlashReady (s1 (oks 4)) ∧ WritesSucceed 4 [] (s1 (oks 4)) := by decide

theorem witness_WriteFifoRegTogglesTheMode :
    FlashReady (s1 (oks 3)) ∧ (0x0C : RegAddr) ≠ (s1 (oks 3)).par.regExtMode ∧
      WritesSucceed 3 [] (s1 (oks 3)) ∧ (0x20 : RegAddr) = (s1 (oks 3)).par.regExtMode := by decide

theorem witness_SectorEraseCompletes :
    FlashReady (s1 (oks 7)) ∧ WritesSucceed 7 [] (s1 (oks 7)) := by decide

/-- 256 bytes, the most a page takes, and 257. -/
theorem witness_ProgramPageCompletes :
    FlashReady (s1 (oks 7)) ∧ WritesSucceed 7 [] (s1 (oks 7)) ∧
      (List.replicate 256 (0 : Byte)).length ≤ 256 ∧
      256 < (List.replicate 257 (0 : Byte)).length := by decide +kernel

theorem witness_SoftResetClearsReady :
    Connected (sOpen (oks 1)) ∧ (sOpen (oks 1)).tstate = .idle ∧
      (sOpen (oks 1)).env.writes = .ok :: [] := by decide

/-- Either side of `T_ERASE_ALL_MS`, and the other controller states. -/
theorem witness_SettleEndsProgramming :
    Resting { s1 [] with tstate := .programming } ∧
      ({ s1 [] with tstate := .programming } : State).par.eraseAllMs ≤ 3500 ∧
      3499 < ({ s1 [] with tstate := .programming } : State).par.eraseAllMs ∧
      Resting (s1 []) ∧ (s1 []).tstate ≠ .programming ∧ (sCmd []).tstate ≠ .programming := by
  decide

theorem witness_ChipSelectStepsComplete :
    Connected (s1 (oks 1)) ∧ (s1 (oks 1)).ready = true ∧ (s1 (oks 1)).fifoMode = .normal ∧
      (s1 (oks 1)).env.writes = .ok :: [] ∧ (s1 (oks 1)).tstate = .idle ∧
      Connected (sCmd (oks 1)) ∧ (sCmd (oks 1)).ready = true ∧ (sCmd (oks 1)).fifoMode = .normal ∧
      (sCmd (oks 1)).env.writes = .ok :: [] ∧ (sCmd (oks 1)).tstate = .cmdAsserted := by decide

theorem witness_FlashOpcodeStepsComplete :
    CommandOpen (sCmd (oks 1)) ∧ (sCmd (oks 1)).env.writes = .ok :: [] := by decide

theorem witness_FlashStringStepsComplete :
    CommandOpen (sCmd (oks 4)) ∧ WritesSucceed 3 [.ok] (sCmd (oks 4)) ∧
      WritesSucceed 4 [] (sCmd (oks 4)) ∧ (List.replicate 256 (0 : Byte)).length ≤ 256 := by
  decide +kernel

theorem witness_LatchedFailureIsFinal :
    ({ s0 [] with fault := some .imageRead } : State).fault = some .imageRead ∧
      ends (step { s0 [] with fault := some .imageRead }) =
        some { s0 [] with fault := some .imageRead } ∧
      ends (step { s0 [] with fault := some .imageRead, host := [.reset tc] }) = some (s0 []) := by
  decide

theorem witness_BusyRefusesEveryOperation : ({ sOpen [] with busy := true } : State).busy = true := by
  decide

theorem witness_ActivationGate : (sOpen []).ready = false ∧ Connected (sOpen []) := by decide

/-- An operation before activation, from a state that meets the invariant. -/
theorem witness_OnlyTheseRunBeforeActivation :
    Inv (s0 []) ∧ (s0 []).ready = false ∧ ∃ t, exec (.encode 0 []) (s0 []) = .next t :=
  ⟨inv_resetWith _ _, rfl, _, rfl⟩

/-- Before the port is opened and after it is closed, and an instruction that no clause excepts. -/
theorem witness_TransportMustBeOpen :
    Resting (s0 []) ∧ (s0 []).transport ≠ .opened ∧
      Resting { s0 [] with transport := .finished } ∧
      ({ s0 [] with transport := .finished } : State).transport ≠ .opened ∧
      (∀ ms, Instr.closePort ≠ .settle ms) ∧ Instr.closePort ≠ .openPort := by
  refine ⟨by decide, by decide, by decide, by decide, ?_, by decide⟩
  intro ms h
  cases h

/-- For each clause the two controller states it is about. -/
theorem witness_WrongControllerStateRefused :
    Connected { sOpen [] with tstate := .programming } ∧
      Connected { sOpen [] with tstate := .cmdAsserted } ∧
      Connected { s1 [] with tstate := .programming } ∧ Connected (sCmd []) ∧ Connected (s1 []) ∧
      ({ s1 [] with tstate := .programming } : State).ready = true ∧ (sCmd []).ready = true ∧
      (sCmd []).tstate ≠ .idle ∧ (s1 []).tstate ≠ .cmdAsserted ∧
      ({ s1 [] with tstate := .programming } : State).tstate ≠ .cmdAsserted := by decide

/-- One byte more than 2^24. -/
theorem witness_OversizeImageRefused :
    FlashReady (s1 []) ∧ 2 ^ 24 < (List.replicate (2 ^ 24 + 1) (0 : Byte)).length :=
  ⟨by decide, by rw [List.length_replicate]; omega⟩

/-- The first and the last reserved code. -/
theorem witness_ReservedOperationRefused :
    16 ≤ (0x10 : BitVec 5).toNat ∧ 16 ≤ (0x1F : BitVec 5).toNat ∧
      ({ select := .opSelect 0x1F } : Command).select = .opSelect 0x1F := by decide

theorem witness_WriteFailureIsPrecise :
    ∃ t, exec .writeEnable (s1 [.ok, .fails]) = .next t ∧ t.fault = some .transportWrite :=
  ⟨_, rfl, rfl⟩

/-- One operation that completes, one that fails, one that hangs. -/
theorem witness_EveryOperationEndsOneWay :
    (∃ t, exec .closePort (sOpen []) = .next t ∧ t.fault = none ∧ t.busy = false) ∧
    (∃ t, exec (.writeReg 0 []) (sOpen [.fails]) = .next t ∧ t.fault ≠ none) ∧
    (∃ t, exec (.writeReg 0 []) (sOpen [.never]) = .next t ∧ t.busy = true) :=
  ⟨⟨_, rfl, rfl, rfl⟩, ⟨_, rfl, by decide⟩, ⟨_, rfl, rfl⟩⟩

theorem witness_WriteEnableFailurePoints :
    FlashReady (s1 [.fails]) ∧ (s1 [.fails]).env.writes = .fails :: [] ∧
      FlashReady (s1 [.ok, .fails]) ∧ (s1 [.ok, .fails]).env.writes = .ok :: .fails :: [] := by
  decide

theorem witness_FailedPageLeavesFifoMode :
    FlashReady (s1 (oks 4 ++ [.fails])) ∧ ([0xA5] : List Byte).length ≤ 256 ∧
      (s1 (oks 4 ++ [.fails])).env.writes = .ok :: .ok :: .ok :: .ok :: .fails :: [] := by decide

/-- `sOpen` with a clock. -/
def sClock (writes : List WriteResult) (ticks : List Tick) : State :=
  { sOpen writes with env := ⟨[], writes, ticks, 0, 0⟩ }

/-- No flood write (the deadline is met at the first test, exactly), and three (V64). -/
theorem witness_ActivateCompletes :
    (Connected (sClock (oks 5) [.advance 0, .advance 1000]) ∧
      (sClock (oks 5) [.advance 0, .advance 1000]).tstate = .idle ∧
      (sClock (oks 5) [.advance 0, .advance 1000]).fifoMode = .normal ∧
      FloodClock 1000 0 [] 1000 [] (sClock (oks 5) [.advance 0, .advance 1000]) ∧
      WritesSucceed 5 [] (sClock (oks 5) [.advance 0, .advance 1000])) ∧
    FloodClock 1000 0 [0, 400, 400] 400 []
      (sClock (oks 8) [.advance 0, .advance 0, .advance 400, .advance 400, .advance 400]) := by
  decide

theorem witness_ActivateTraceForEveryFlood :
    ∃ t, exec .activate (sClock (oks 5) [.advance 0, .advance 1000]) = .next t ∧
      t.fault = none ∧ t.busy = false := ⟨_, rfl, rfl, rfl⟩

/-- A one-byte image, and the length of the longest. -/
theorem witness_ProgramCompletes :
    FlashReady (s1 (oks 15)) ∧ ([0xA5] : List Byte).length ≤ 2 ^ 24 ∧
      WritesSucceed (7 * ceilDiv 1 4096 + 7 * ceilDiv 1 256 + 1) [] (s1 (oks 15)) ∧
      (List.replicate (2 ^ 24) (0 : Byte)).length ≤ 2 ^ 24 :=
  ⟨by decide, by decide, by decide, by rw [List.length_replicate]⟩

theorem witness_PagesCoverTheImage : (0, [0xA5]) ∈ pagesOf [0xA5] := by decide

/-- S0 with the device opening, `n` writes and a flood of none. -/
def sRun (n : Nat) : State :=
  State.resetWith tp tc ⟨[.opened], oks n, [.advance 0, .advance 1000], 0, 0⟩ []

theorem witness_SessionCompletes :
    Resting (sRun 26) ∧ (sRun 26).transport = .closed ∧ (sRun 26).tstate = .idle ∧
      (sRun 26).fifoMode = .normal ∧ ([0xA5] : List Byte).length ≤ 2 ^ 24 ∧
      (sRun 26).env.opens = .opened :: [] ∧ FloodClock 1000 0 [] 1000 [] (sRun 26) ∧
      WritesSucceed (0 + 11 + (7 * ceilDiv 1 4096 + 7 * ceilDiv 1 256 + 1)) [] (sRun 26) := by
  decide

theorem witness_UnreadableImageFailsFirst : Resting (s0 []) ∧ (s0 []).transport = .closed := by
  decide

theorem witness_OperationsSendTheirCommandStrings : tp.valid ∧ tp.meaningful :=
  test_instance_is_valid

theorem witness_ProgramSendsTheImage : tp.valid ∧ tp.meaningful := test_instance_is_valid

theorem witness_StepKeepsTheInvariant :
    Inv (State.resetWith tp tc ⟨[.opened], [], [], 0, 0⟩ [.issue { select := .opSelect 0x0E }]) ∧
    ∃ t, step (State.resetWith tp tc ⟨[.opened], [], [], 0, 0⟩
        [.issue { select := .opSelect 0x0E }]) = .next t ∧ t.transport = .opened :=
  ⟨inv_resetWith _ _, _, rfl, rfl⟩

theorem witness_EveryOperationKeepsTheFrame :
    ∃ t, exec .writeEnable (s1 (oks 2)) = .next t := ⟨_, rfl⟩

/-- An instruction that none of the clauses excepts, and the one each clause excepts. -/
theorem witness_OnlyTheseOperationsWriteEachVariable :
    (∃ t, exec .writeEnable (s1 (oks 2)) = .next t) ∧
    (∃ t, exec .softReset (s1 (oks 1)) = .next t ∧ t.ready = false) ∧
    (∃ t, exec .activate (sClock (oks 5) [.advance 0, .advance 1000]) = .next t ∧
      t.ready = true) := ⟨⟨_, rfl⟩, ⟨_, rfl, rfl⟩, ⟨_, rfl, rfl⟩⟩

/-- A refused burst of a FIFO transfer is one of the operations named. -/
theorem witness_ControllerStateFrame :
    ∃ t, exec (.writeFifoReg 0x0C []) (s1 [.ok, .fails]) = .next t ∧ t.tstate = .idle :=
  ⟨_, rfl, rfl⟩

end Sys2Proof.Tests
end

namespace Sys2Proof

/-! ## The encoder's formats (R70, R72, R73) -/

/-- When every element expands to `n` items, expansion `i` stands at offset `n * i` (the layout rule
behind both the frames of a byte and the source bytes of a packet). -/
theorem take_drop_flatMap_append {α β : Type} {f : α → List β} {n : Nat}
    (hf : ∀ a, (f a).length = n) {l : List α} {i : Nat} {a : α} (h : l[i]? = some a)
    (rest : List β) : ((l.flatMap f ++ rest).drop (n * i)).take n = f a := by
  induction l generalizing i with
  | nil => simp at h
  | cons b bs ih =>
    cases i with
    | zero =>
      obtain rfl : b = a := by simpa using h
      simp [← hf b]
    | succ i =>
      have hnext : n * (i + 1) = (f b).length + n * i := by rw [hf, Nat.mul_succ, Nat.add_comm]
      rw [List.flatMap_cons, List.append_assoc, hnext, List.drop_length_add_append]
      exact ih (by simpa using h)

theorem pad_toList (p : Params) :
    p.pad.toList = [p.pad[0], p.pad[1], p.pad[2], p.pad[3], p.pad[4], p.pad[5], p.pad[6],
      p.pad[7]] := by
  rw [← Vector.ofFn_getElem (xs := p.pad), Vector.toList_ofFn]
  simp [List.ofFn_succ]

theorem bitsMsbFirst_getElem? (v : Byte) {k : Nat} (hk : k < 8) :
    (bitsMsbFirst v)[k]? = some (v.getLsbD (7 - k)) := by
  interval_cases k <;> rfl

/-- Frame `k` of an expanded byte carries bit `7 - k`. -/
theorem expandByte_frame (p : Params) (v : Byte) {k : Nat} (hk : k < 8) :
    ((expandByte p v).drop (10 * k)).take 10 = bitFrame p (v.getLsbD (7 - k)) := by
  simpa [expandByte] using
    take_drop_flatMap_append (bitFrame_length p) (bitsMsbFirst_getElem? v hk) []

theorem addrHi_eq_ofNat (a : BitVec 24) : addrHi a = BitVec.ofNat 8 (a.toNat / 65536) := by
  rw [addrHi, BitVec.extractLsb', Nat.shiftRight_eq_div_pow]

theorem addrMid_eq_ofNat (a : BitVec 24) : addrMid a = BitVec.ofNat 8 (a.toNat / 256) := by
  rw [addrMid, BitVec.extractLsb', Nat.shiftRight_eq_div_pow]

theorem addrLo_eq_ofNat (a : BitVec 24) : addrLo a = BitVec.ofNat 8 a.toNat := by
  rw [addrLo, BitVec.extractLsb', Nat.shiftRight_zero]

/-- Settles O1: the marker of the bit, the eight padding bytes one by one, the stop byte. -/
theorem bitFrameIsMarkerPaddingStop : Obligations.BitFrameIsMarkerPaddingStop := by
  intro p b
  rw [bitFrame, pad_toList]
  rfl

/-- Settles O2: all frames have ten bytes, so frame `k` is the expansion of the `k`-th bit. -/
theorem expandByteIsEightFramesMsbFirst : Obligations.ExpandByteIsEightFramesMsbFirst :=
  fun p v => ⟨expandByte_length p v, fun _ hk => expandByte_frame p v hk⟩

/-- Settles O3: each slice of the address is a quotient of it, cut to eight bits. -/
theorem headerCutsTheAddress : Obligations.HeaderCutsTheAddress := by
  intro a
  rw [header, addrHi_eq_ofNat, addrMid_eq_ofNat, addrLo_eq_ofNat]
  rfl

end Sys2Proof

namespace Sys2Proof.Machine

/-! ## Refusals (60_exceptions.md R155, R158) -/

theorem enter_error {s : State} (h : ¬ Resting s) : ∃ r, enter s = .error r := by
  cases ha : enter s with
  | error r => exact ⟨r, rfl⟩
  | ok p => exact absurd (enter_ok ha).1 h

theorem operation_refused {body : State → Flow} {s : State} (h : ¬ Resting s) :
    ∃ r, operation body s = .refused r := by
  obtain ⟨r, hr⟩ := enter_error h
  exact ⟨r, by rw [operation, hr, andThen_error, conclude_error]⟩

theorem function_refused {value : State → List Byte} {s : State} (h : ¬ Resting s) :
    ∃ r, function value s = .refused r := by
  obtain ⟨r, hr⟩ := enter_error h
  exact ⟨r, by rw [function, hr, conclude_error]⟩

/-- Every instruction is issued through the one admission check, but for the reserved codes, which
are refused outright (R61 a). -/
theorem exec_cases (i : Instr) (s : State) :
    (∃ body, exec i s = operation body s) ∨ (∃ value, exec i s = function value s) ∨
      ∃ r, exec i s = .refused r := by
  cases i with
  | encode a d => exact .inr (.inl ⟨fun s => encodePacket s.par a d, rfl⟩)
  | bitFrame1 => exact .inr (.inl ⟨fun s => bitFrame s.par true, rfl⟩)
  | bitFrame0 => exact .inr (.inl ⟨fun s => bitFrame s.par false, rfl⟩)
  | terminator => exact .inr (.inl ⟨fun _ => termFrame, rfl⟩)
  | addressHeader a => exact .inr (.inl ⟨fun _ => header a, rfl⟩)
  | reservedOp => exact .inr (.inr ⟨_, rfl⟩)
  | _ => exact .inl ⟨_, rfl⟩

/-- R158 (a): no instruction is admitted while a failure is latched or an operation is in progress. -/
theorem exec_refused {i : Instr} {s : State} (h : ¬ Resting s) : ∃ r, exec i s = .refused r := by
  obtain ⟨body, hop⟩ | ⟨value, hfn⟩ | href := exec_cases i s
  · exact hop ▸ operation_refused h
  · exact hfn ▸ function_refused h
  · exact href

/-- Everything a step that answers a next state can be: the wait for the host, the host's reset, or an
issued instruction (R170, R188). -/
theorem step_next {s t : State} (h : step s = .next t) :
    (s.host = [] ∧ s.busy = false ∧ t = s) ∨
    (∃ cfg rest, s.host = .reset cfg :: rest ∧ s.busy = false ∧ t = reset cfg rest s) ∨
    ∃ c rest i, s.host = .issue c :: rest ∧ decode s.par c = .ok i ∧
      exec i { s with host := rest } = .next t := by
  unfold step at h
  split at h
  next hhost =>
    split at h
    · cases h
    · cases h
      exact .inl ⟨hhost, by simpa using ‹¬ s.busy = true›, rfl⟩
  next cfg rest hhost =>
    split at h
    · cases h
    · cases h
      exact .inr (.inl ⟨cfg, rest, hhost, by simpa using ‹¬ s.busy = true›, rfl⟩)
  next c rest hhost =>
    split at h
    · cases h
    · exact .inr (.inr ⟨c, rest, _, hhost, ‹_›, h⟩)

theorem not_resting_of_fault {s : State} {f : Failure} (h : s.fault = some f) : ¬ Resting s := by
  rintro ⟨hnone, -⟩
  simp [h] at hnone

/-- Settles O34: a latched failure admits no instruction, so that a step other than the host's reset
can only be the wait, which changes nothing. -/
theorem latchedFailureIsFinal : Obligations.LatchedFailureIsFinal := by
  refine ⟨fun i s f hf => exec_refused (not_resting_of_fault hf), fun s t f hf hstep => ?_⟩
  obtain ⟨-, -, rfl⟩ | ⟨cfg, rest, hhost, -⟩ | ⟨c, rest, i, -, -, hexec⟩ := step_next hstep
  · exact .inl hf
  · exact .inr ⟨cfg, rest, hhost⟩
  · have hrest : ¬ Resting { s with host := rest } := not_resting_of_fault (f := f) hf
    obtain ⟨r, href⟩ := exec_refused (i := i) hrest
    rw [href] at hexec
    cases hexec

end Sys2Proof.Machine


namespace Sys2Proof

/-! ## The decoder and the encoder (30_encoding.md) -/

theorem withData_ok {p : Params} {d : List Byte} {i j : Instr} (h : withData p d i = .ok j) :
    p.carries d.length = true ∧ j = i := by
  unfold withData at h
  split at h
  · cases h
    exact ⟨‹_›, rfl⟩
  · cases h

theorem withData_eq {p : Params} {d : List Byte} {i : Instr} (h : p.carries d.length = true) :
    withData p d i = .ok i := if_pos h

/-- R61 (a): the codes from 0x10 up are the reserved operation. -/
theorem decodeOp_reserved (p : Params) (c : Command) {code : BitVec 5} (h : 16 ≤ code.toNat) :
    decodeOp p code c = .ok (.reservedOp code) := by
  unfold decodeOp
  split
  case h_17 => rfl
  all_goals omega

/-- The first four bytes of an addressed flash string carry the whole address. -/
theorem decodeAddressedString_slices (op : Byte) (a : FlashAddr) (payload : List Byte) :
    decodeFlashString ([op, addrHi a, addrMid a, addrLo a] ++ payload) =
      if op = fcSectorErase ∧ payload = [] then .ok (.flashSectorEraseString a)
      else if op = fcPageProgram ∧ payload.length ≤ pageChunk then
        .ok (.flashPageProgramPrefix a payload)
      else .error .unknownFlashString := by
  simp [decodeFlashString, decodeAddressedString]

theorem bitFrame_getLast? (p : Params) (b : Bool) : (bitFrame p b).getLast? = some stopMark := by
  simp [bitFrame, List.getLast?_cons]

theorem bitFrame_head? (p : Params) (b : Bool) :
    (bitFrame p b).head? = some (if b then mark1 else mark0) := rfl

/-- R79: the last byte tells a BitFrame from the terminator. -/
theorem bitFrame_ne_termFrame (p : Params) (b : Bool) : bitFrame p b ≠ termFrame := by
  intro h
  have hlast : some stopMark = termFrame.getLast? := by rw [← h, bitFrame_getLast?]
  exact absurd hlast (by decide)

theorem decodeFrame_bitFrame (p : Params) (b : Bool) :
    decodeFrame (bitFrame p b) = .ok (if b then .bitFrame1 else .bitFrame0) := by
  rw [decodeFrame, if_neg (bitFrame_ne_termFrame p b),
    if_pos ⟨bitFrame_length p b, bitFrame_getLast? p b⟩, bitFrame_head?]
  cases b <;> decide

theorem decodeHeader_header (a : RegAddr) : decodeHeader (header a) = .ok (.addressHeader a) := by
  simp [decodeHeader, header]

theorem decodeCsValue_low {p : Params} (h : p.csLowVal ≠ csHighVal) (next : Closing) :
    decodeCsValue p p.csLowVal next = .ok .csLow := by
  rw [decodeCsValue, if_neg h, if_pos rfl]

/-- Settles O8: the operands travel beside the select bits or are cut from them and put together
again; the select bits name the row by themselves, for the chip-select values because the two
differ. -/
theorem decodeOfEncode : Obligations.DecodeOfEncode := by
  intro p i hp hi
  obtain ⟨-, -, -, -, hcs⟩ := hp
  cases i with
  | encode a d => exact withData_eq hi
  | writeReg a d => exact withData_eq hi
  | writeFifoReg a d => exact withData_eq hi
  | programPage a d => exact withData_eq hi
  | reservedOp code => exact decodeOp_reserved p _ (of_decide_eq_true hi)
  | flashSectorEraseString a => exact decodeAddressedString_slices _ a []
  | flashPageProgramPrefix a payload =>
    refine (decodeAddressedString_slices _ a payload).trans ?_
    rw [if_neg fun h => absurd h.1 (by decide), if_pos ⟨rfl, of_decide_eq_true hi⟩]
  | bitFrame1 => exact decodeFrame_bitFrame p true
  | bitFrame0 => exact decodeFrame_bitFrame p false
  | addressHeader a => exact decodeHeader_header a
  | csLow => exact decodeCsValue_low hcs _
  | _ => rfl

/-! What each part of the decoder accepts is well formed. -/

section Accepts

variable {p : Params} {i : Instr}

theorem decodeOp_wf {code : BitVec 5} {c : Command} (h : decodeOp p code c = .ok i) :
    i.wf p = true := by
  by_cases hcode : 16 ≤ code.toNat
  · rw [decodeOp_reserved p c hcode] at h
    cases h
    exact decide_eq_true hcode
  have data : ∀ {d : List Byte} {j : Instr}, withData p d j = .ok i →
      j.wf p = p.carries d.length → i.wf p = true := by
    intro d j hok hwf
    obtain ⟨hcar, rfl⟩ := withData_ok hok
    rw [hwf, hcar]
  unfold decodeOp at h
  split at h
  case h_1 => exact data h rfl
  case h_2 => exact data h rfl
  case h_7 => exact data h rfl
  case h_9 => exact data h rfl
  case h_13 => split at h <;> cases h; rfl
  case h_17 => simp only [imp_false] at *; omega
  all_goals (cases h; rfl)

theorem decodeFlashOpcode_wf {b : Byte} (h : decodeFlashOpcode b = .ok i) : i.wf p = true := by
  unfold decodeFlashOpcode at h
  repeat' split at h
  all_goals cases h <;> rfl

theorem decodeAddressedString_wf {op hi mid lo : Byte} {payload : List Byte}
    (h : decodeAddressedString op hi mid lo payload = .ok i) : i.wf p = true := by
  unfold decodeAddressedString at h
  split at h
  · cases h; rfl
  · split at h
    next hpage => cases h; exact decide_eq_true hpage.2
    · cases h

theorem decodeFlashString_wf {bytes : List Byte} (h : decodeFlashString bytes = .ok i) :
    i.wf p = true := by
  unfold decodeFlashString at h
  split at h
  case h_3 => exact decodeAddressedString_wf h
  all_goals repeat' split at h
  all_goals cases h <;> rfl

theorem decodeFrame_wf {bytes : List Byte} (h : decodeFrame bytes = .ok i) : i.wf p = true := by
  unfold decodeFrame at h
  repeat' split at h
  all_goals cases h <;> rfl

theorem decodeHeader_wf {bytes : List Byte} (h : decodeHeader bytes = .ok i) : i.wf p = true := by
  unfold decodeHeader at h
  repeat' split at h
  all_goals cases h <;> rfl

theorem decodeCsValue_wf {b : Byte} {next : Closing} (h : decodeCsValue p b next = .ok i) :
    i.wf p = true := by
  unfold decodeCsValue at h
  repeat' split at h
  all_goals cases h <;> rfl

theorem decodeMcuValue_wf {b : Byte} (h : decodeMcuValue b = .ok i) : i.wf p = true := by
  unfold decodeMcuValue at h
  split at h
  all_goals cases h <;> rfl

end Accepts

/-- Settles O9: format by format; the bounds are the ones the decoder tests. -/
theorem decodedIsWellFormed : Obligations.DecodedIsWellFormed := by
  intro p c i h
  unfold decode at h
  cases hsel : c.select with
  | opSelect code => rw [hsel] at h; exact decodeOp_wf h
  | flashOpcode b => rw [hsel] at h; exact decodeFlashOpcode_wf h
  | flashString bytes => rw [hsel] at h; exact decodeFlashString_wf h
  | frame bytes => rw [hsel] at h; exact decodeFrame_wf h
  | header bytes => rw [hsel] at h; exact decodeHeader_wf h
  | csValue b => rw [hsel] at h; exact decodeCsValue_wf h
  | mcuValue b => rw [hsel] at h; exact decodeMcuValue_wf h

/-- Settles O10: the ten words are closed terms that the decoder evaluates. -/
theorem specWordsDecode : Obligations.SpecWordsDecode := by
  unfold Obligations.SpecWordsDecode
  decide

/-- Settles O39: R61 (a) in the decoder and R158 (i) in the meaning. -/
theorem reservedOperationRefused : Obligations.ReservedOperationRefused := by
  intro p c code s hcode hsel
  refine ⟨?_, rfl⟩
  rw [decode, hsel]
  exact decodeOp_reserved p c hcode

end Sys2Proof


namespace Sys2Proof

/-! ## Packets (40_bitstream_encoder.md) -/

theorem length_flatMap_const {α β : Type} {f : α → List β} {n : Nat}
    (hf : ∀ a, (f a).length = n) (l : List α) : (l.flatMap f).length = n * l.length := by
  simp [List.length_flatMap, hf, Nat.mul_comm]

/-- R76. -/
theorem encodePacket_length (p : Params) (a : RegAddr) (d : List Byte) :
    (encodePacket p a d).length = 80 * (5 + d.length) + 10 := by
  rw [encodePacket, List.length_append, length_flatMap_const (expandByte_length p),
    packetSource_length, termFrame_length]

/-- The bits of a packet in the order they are sent. -/
def packetBits (a : RegAddr) (d : List Byte) : List Bool := (packetSource a d).flatMap bitsMsbFirst

theorem packetBits_length (a : RegAddr) (d : List Byte) :
    (packetBits a d).length = 8 * (5 + d.length) := by
  rw [packetBits, length_flatMap_const (n := 8) fun _ => rfl, packetSource_length]

/-- A packet is one BitFrame per bit, then the terminator (R74). -/
theorem encodePacket_frames (p : Params) (a : RegAddr) (d : List Byte) :
    encodePacket p a d = (packetBits a d).flatMap (bitFrame p) ++ termFrame := by
  rw [encodePacket, packetBits, List.flatMap_assoc]
  rfl

/-- Byte 9 of ten-byte piece `k` before the terminator. -/
theorem encodePacket_stopMark (p : Params) (a : RegAddr) (d : List Byte) {k : Nat}
    (hk : k < 8 * (5 + d.length)) : (encodePacket p a d)[10 * k + 9]? = some stopMark := by
  rw [← packetBits_length a d] at hk
  have hframe :=
    take_drop_flatMap_append (bitFrame_length p) (List.getElem?_eq_getElem hk) termFrame
  have hlast := bitFrame_getLast? p (packetBits a d)[k]
  rw [List.getLast?_eq_getElem?, bitFrame_length, ← hframe, List.getElem?_take_of_lt (by omega),
    List.getElem?_drop] at hlast
  rw [encodePacket_frames]
  exact hlast

/-- Settles O4: every source byte expands to 80 bytes. -/
theorem packetLayout : Obligations.PacketLayout := by
  intro p a d
  refine ⟨fun i v hv => take_drop_flatMap_append (expandByte_length p) hv termFrame, ?_⟩
  have hlen : 80 * (5 + d.length) = ((packetSource a d).flatMap (expandByte p)).length := by
    rw [length_flatMap_const (expandByte_length p), packetSource_length]
  rw [hlen, encodePacket, List.drop_left]

/-- Settles O5: what follows the frames is the terminator, and a frame ends in the stop marker. -/
theorem terminatorIsLastAndOnlyOne : Obligations.TerminatorIsLastAndOnlyOne := by
  intro p a d
  refine ⟨?_, fun k hk => encodePacket_stopMark p a d hk⟩
  rw [encodePacket_length, Nat.add_sub_cancel]
  exact (packetLayout p a d).2

/-- Settles O6. -/
theorem packetLengthIsLinear : Obligations.PacketLengthIsLinear := encodePacket_length

end Sys2Proof

namespace Sys2Proof.Machine

/-! ## The reference receiver (R80, R81) -/

theorem receiveBits_bitFrame (p : Params) (b : Bool) (rest : List Byte) :
    receiveBits (bitFrame p b ++ rest) = (receiveBits rest).map (b :: ·) := by
  rw [bitFrame, pad_toList]
  cases b <;> cases h : receiveBits rest <;> simp [receiveBits, markerBit, mark0, mark1, h]

theorem receiveBits_frames (p : Params) (bits : List Bool) :
    receiveBits (bits.flatMap (bitFrame p) ++ termFrame) = some bits := by
  induction bits with
  | nil => rfl
  | cons b bs ih => rw [List.flatMap_cons, List.append_assoc, receiveBits_bitFrame, ih]; rfl

theorem byteOfBits_bits (v : Byte) :
    byteOfBits (v.getLsbD 7) (v.getLsbD 6) (v.getLsbD 5) (v.getLsbD 4) (v.getLsbD 3)
      (v.getLsbD 2) (v.getLsbD 1) (v.getLsbD 0) = v := by
  revert v
  decide

theorem bytesOfBits_bits (src : List Byte) :
    bytesOfBits (src.flatMap bitsMsbFirst) = some src := by
  induction src with
  | nil => rfl
  | cons v vs ih =>
    rw [List.flatMap_cons, bitsMsbFirst]
    simp only [List.cons_append, List.nil_append, bytesOfBits, ih, byteOfBits_bits]

theorem packetOfSource_packetSource (a : RegAddr) (d : List Byte) :
    packetOfSource (packetSource a d) = some (a, d) := by
  simp [packetOfSource, packetSource, header]

theorem receive_encodePacket (p : Params) (a : RegAddr) (d : List Byte) :
    receive (encodePacket p a d) = some (a, d) := by
  rw [receive, encodePacket_frames, receiveBits_frames]
  simp only [packetBits, bytesOfBits_bits, packetOfSource_packetSource]

/-- Settles O7: frames back to bits, bits to bytes, bytes to address and data. -/
theorem receiverRecoversThePacket : Obligations.ReceiverRecoversThePacket := receive_encodePacket

end Sys2Proof.Machine


namespace Sys2Proof.Machine

/-! ## Operations that run to their end -/

theorem require_pos {P : Prop} [Decidable P] {r : Refusal} {s : State} (h : P) :
    require (decide P) r s = Flow.go s := require_true (decide_eq_true h)

theorem require_neg {P : Prop} [Decidable P] {r : Refusal} {s : State} (h : ¬ P) :
    require (decide P) r s = .error r := require_false (decide_eq_false h)

section Runs

variable {s u : State} {body : State → Flow} {rest : List WriteResult} {ev : List Event}

theorem operation_completes (h : Resting s) (hb : body (issued s) = Flow.go u) :
    operation body s = .next (completed .ok u) := by
  rw [operation_eq h, hb, conclude_go]

theorem operation_fails {f : Failure} (h : Resting s)
    (hb : body (issued s) = Flow.halt (raise f u)) : operation body s = .next (raise f u) := by
  rw [operation_eq h, hb, conclude_halt]

/-- With the gate met, a gated operation is its body. -/
theorem flashGate_issued (h : FlashReady s) (g : State → Flow) :
    (flashGate (issued s)).andThen g = g (issued s) := by
  obtain ⟨⟨-, ht⟩, hr, hs, -⟩ := h
  rw [flashGate_eq (s := issued s) ht hr hs, andThen_go]

theorem activeGate_issued (h : Connected s) (hr : s.ready = true) (g : State → Flow) :
    (activeGate (issued s)).andThen g = g (issued s) := by
  rw [activeGate_eq (s := issued s) h.2 hr, andThen_go]

theorem requireOpen_issued (h : Connected s) (g : State → Flow) :
    (requireOpen (issued s)).andThen g = g (issued s) := by
  rw [requireOpen_eq (s := issued s) h.2, andThen_go]

theorem flashOperation_completes (h : FlashReady s) (hb : body (issued s) = Flow.go u) :
    operation (fun s => (flashGate s).andThen body) s = .next (completed .ok u) :=
  operation_completes h.1.1 ((flashGate_issued h body).trans hb)

theorem activeOperation_completes (h : Connected s) (hr : s.ready = true)
    (hb : body (issued s) = Flow.go u) :
    operation (fun s => (activeGate s).andThen body) s = .next (completed .ok u) :=
  operation_completes h.1 ((activeGate_issued h hr body).trans hb)

theorem openOperation_completes (h : Connected s) (hb : body (issued s) = Flow.go u) :
    operation (fun s => (requireOpen s).andThen body) s = .next (completed .ok u) :=
  operation_completes h.1 ((requireOpen_issued h body).trans hb)

theorem flashOperation_fails {f : Failure} (h : FlashReady s)
    (hb : body (issued s) = Flow.halt (raise f u)) :
    operation (fun s => (flashGate s).andThen body) s = .next (raise f u) :=
  operation_fails h.1.1 ((flashGate_issued h body).trans hb)

theorem Connected.live_issued (h : Connected s) : Live (issued s) := ⟨h.2, h.1.1⟩

/-- Completing an operation that leaves the controller in `t` and the bus in normal mode. -/
theorem completed_ran_tstate (hm : s.fifoMode = .normal) (t : TState) :
    completed .ok (ran t .normal ev rest (issued s)) =
      { delivered ev rest s with tstate := t } := by
  rw [← hm]
  rfl

/-- Completing an operation that comes back to `Idle`. -/
theorem completed_ran_same {t : TState} (hs : s.tstate = t) (hm : s.fifoMode = .normal) :
    completed .ok (ran t .normal ev rest (issued s)) = delivered ev rest s := by
  rw [← hs, ← hm, completed_ran]

end Runs

/-! ### The encoder and the transport -/

/-- Settles O15. -/
theorem encodeReturnsThePacket : Obligations.EncodeReturnsThePacket :=
  fun s a d h => function_eq (value := fun s => encodePacket s.par a d) (s := s) h

/-- Settles O16: each row is a function of the encoder. -/
theorem formatFunctionsReturnTheirBytes : Obligations.FormatFunctionsReturnTheirBytes :=
  fun s a h => ⟨function_eq (value := fun s => bitFrame s.par true) (s := s) h,
    function_eq (value := fun s => bitFrame s.par false) (s := s) h,
    function_eq (value := fun _ => termFrame) (s := s) h,
    function_eq (value := fun _ => header a) (s := s) h⟩

theorem openTransport_opens {s : State} {rest : List OpenResult} (ht : s.transport = .closed)
    (hf : s.fault = none) (ho : s.env.opens = .opened :: rest) :
    openTransport s = Flow.go (emit .opened
      { s with transport := .opened, env := { s.env with opens := rest } }) := by
  simp [openTransport, ht, hf, nextOpen_cons ho, opened, Flow.go]

theorem openTransport_fails {s : State} {rest : List OpenResult} (ht : s.transport = .closed)
    (hf : s.fault = none) (ho : s.env.opens = .refused :: rest) :
    openTransport s =
      Flow.halt (raise .transportOpen { s with env := { s.env with opens := rest } }) := by
  simp [openTransport, ht, hf, nextOpen_cons ho, opened, Flow.halt]

/-- Settles O17. -/
theorem openOpensTheTransport : Obligations.OpenOpensTheTransport :=
  fun s _ h ht ho => operation_completes h (openTransport_opens (s := issued s) ht h.1 ho)

/-- Settles O18: the failure is latched by the open itself, and the rest is the invariant's clause
on a transport that was never opened. -/
theorem openFailureIsLatched : Obligations.OpenFailureIsLatched := by
  intro s rest hinv h ht ho
  exact ⟨operation_fails h (openTransport_fails (s := issued s) ht h.1 ho),
    (hinv.closed_untouched ht).1, hinv.lines_high⟩

theorem writeRegister_fails {a : RegAddr} {d : List Byte} {s : State}
    {rest : List WriteResult} (h : Live s) (hw : s.env.writes = .fails :: rest) :
    writeRegister a d s = Flow.halt (raise .transportWrite (emit
      (.writeFailed (encodePacket s.par a d)) { s with env := { s.env with writes := rest } })) :=
  transportWrite_fails h.1 h.2 hw

/-- Settles O20: a register write is one transport write, by its two outcomes. -/
theorem writeRegIsOneBurst : Obligations.WriteRegIsOneBurst :=
  fun s _ _ _ h => ⟨
    fun hw => operation_completes h.1 (writeRegister_ran (s := issued s) h.live_issued hw),
    fun hw => operation_fails h.1 (writeRegister_fails (s := issued s) h.live_issued hw)⟩

/-- Settles O21: the write leaves the block as it was issued, and a busy block admits nothing. -/
theorem unfinishedWriteHangs : Obligations.UnfinishedWriteHangs := by
  intro s a d rest h hw
  refine ⟨_, ?_, rfl, fun i => exec_refused fun hR => absurd hR.2 (by simp)⟩
  refine (operation_eq h.1).trans ?_
  rw [writeRegister, transportWrite_never (s := issued s) h.2 h.1.1 hw, conclude_halt]
  rfl

/-! ### The FlashProtocol operations -/

/-- Settles O23: both operations are the two bursts of one opcode. -/
theorem writeEnableAndWakeUpComplete : Obligations.WriteEnableAndWakeUpComplete := by
  intro s rest h hw
  obtain ⟨hc, -, hs, hm⟩ := id h
  have hran := fun op =>
    singleOpcode_ran (op := op) (next := .toIdle) (s := issued s) hc.live_issued hs hm hw
  have hdone := fun op => completed_ran_same (ev := opcodeTrace s.par op) (rest := rest) hs hm
  exact ⟨(flashOperation_completes h (hran 0x06)).trans (congrArg _ (hdone 0x06)),
    (flashOperation_completes h (hran 0xAB)).trans (congrArg _ (hdone 0xAB))⟩

/-- Settles O24. -/
theorem eraseAllLeavesProgramming : Obligations.EraseAllLeavesProgramming := by
  intro s rest h hw
  obtain ⟨hc, -, hs, hm⟩ := id h
  refine (flashOperation_completes h (singleOpcode_ran hc.live_issued hs hm hw)).trans ?_
  rw [closingState, completed_ran_tstate hm]
  rfl

/-- Settles O25. -/
theorem unlockIsFourBursts : Obligations.UnlockIsFourBursts := by
  intro s rest h hw
  obtain ⟨hc, -, hs, hm⟩ := id h
  refine (flashOperation_completes h (unlockBody_ran hc.live_issued hs hm hw)).trans ?_
  rw [completed_ran_same hs hm]
  rfl

/-- Settles O26: the check of the register comes between the gate and the transfer. -/
theorem writeFifoRegTogglesTheMode : Obligations.WriteFifoRegTogglesTheMode := by
  intro s a d rest h
  obtain ⟨hc, -, hs, hm⟩ := id h
  refine ⟨fun ha hw => ?_, fun ha => ?_⟩
  · refine (operation_completes (u := ran s.tstate .normal (fifoTrace s.par a d) rest (issued s))
      hc.1 ?_).trans ?_
    · rw [flashGate_issued h, require_pos (P := a ≠ (issued s).par.regExtMode) ha, andThen_go,
        writeFifoBody_ran hc.live_issued hm hw]
      rfl
    · rw [completed_ran_same rfl hm]
      rfl
  · refine (operation_eq hc.1).trans ?_
    rw [flashGate_issued h, require_neg (P := a ≠ (issued s).par.regExtMode) (not_not.mpr ha)]
    rfl

/-- Settles O27. -/
theorem sectorEraseCompletes : Obligations.SectorEraseCompletes := by
  intro s a rest h hw
  obtain ⟨hc, -, hs, hm⟩ := id h
  refine (flashOperation_completes h (sectorEraseBody_ran hc.live_issued hs hm hw)).trans ?_
  exact congrArg (fun t => Host.Outcome.next (waited 300 t)) (completed_ran_same hs hm)

/-- Settles O28: the length check stands before the first burst. -/
theorem programPageCompletes : Obligations.ProgramPageCompletes := by
  intro s a d rest h
  obtain ⟨hc, -, hs, hm⟩ := id h
  refine ⟨fun hd hw => ?_, fun hd => ?_⟩
  · refine (flashOperation_completes h
      (programPageBody_ran hc.live_issued hs hm hd hw)).trans ?_
    exact congrArg (fun t => Host.Outcome.next (waited 10 t)) (completed_ran_same hs hm)
  · refine (operation_eq hc.1).trans ?_
    rw [flashGate_issued h, programPageBody,
      require_neg (P := d.length ≤ pageChunk) (Nat.not_le.mpr hd)]
    rfl

/-- Settles O29: the operation and the control value are the same statements. -/
theorem softResetClearsReady : Obligations.SoftResetClearsReady := by
  intro s rest h hs hw
  have hrun : operation (fun s => (requireOpen s).andThen softResetBody) s =
      .next { delivered [burst s.par s.par.regMcuCtrl [0x20]] rest s with ready := false } :=
    openOperation_completes h (softResetBody_ran h.live_issued hs hw)
  exact ⟨hrun, hrun⟩

/-- Settles O30: the two checks of `settle` in their order, then the wait. -/
theorem settleEndsProgramming : Obligations.SettleEndsProgramming := by
  intro s ms h
  refine ⟨fun hs hms => (operation_completes (u := { emit (.delay ms) (waited ms (issued s)) with
    tstate := .idle }) h ?_).trans rfl, fun hs hms => (operation_eq h).trans ?_,
    fun hs => (operation_eq h).trans ?_⟩
  · rw [settleBody, requireTState_eq (s := issued s) hs, andThen_go,
      require_pos (P := (issued s).par.eraseAllMs ≤ ms) hms, andThen_go,
      delay_eq (s := issued s) h.1, andThen_go]
    rfl
  · rw [settleBody, requireTState_eq (s := issued s) hs, andThen_go,
      require_neg (P := (issued s).par.eraseAllMs ≤ ms) (Nat.not_le.mpr hms)]
    rfl
  · rw [settleBody, requireTState_ne (s := issued s) hs]
    rfl

/-! ### The rows of the flash formats -/

/-- Settles O31. -/
theorem chipSelectStepsComplete : Obligations.ChipSelectStepsComplete := by
  intro s rest h hr hm hw
  have high : ∀ next, s.tstate = .cmdAsserted → exec (.csHigh next) s = .next { delivered
      [burst s.par s.par.regFlashCs [0x01]] rest s with tstate := closingState next } := by
    intro next hs
    refine (activeOperation_completes h hr (csHighStep_ran h.live_issued hs hm hw)).trans ?_
    rw [completed_ran_tstate hm]
    rfl
  refine ⟨fun hs => ?_, fun hs => ⟨high _ hs, high _ hs⟩⟩
  refine (activeOperation_completes h hr (csLowStep_ran h.live_issued hs hm hw)).trans ?_
  rw [completed_ran_tstate hm]
  rfl

/-- Settles O32: three opcodes are the last byte of their string, three are not. -/
theorem flashOpcodeStepsComplete : Obligations.FlashOpcodeStepsComplete := by
  intro s rest ⟨h, hr, hs, hm⟩ hw
  have last : ∀ op next, operation (fun s => (activeGate s).andThen (sendLastByte op next)) s =
      .next { delivered [burst s.par s.par.regFlashData [op, 0x01]] rest s with
        tstate := closingState next } := by
    intro op next
    refine (activeOperation_completes h hr (sendLastByte_ran h.live_issued hs hm hw)).trans ?_
    rw [completed_ran_tstate hm]
    rfl
  have more : ∀ op, operation (fun s => (activeGate s).andThen (sendByte op)) s =
      .next (delivered [burst s.par s.par.regFlashData [op]] rest s) := by
    intro op
    refine (activeOperation_completes h hr (sendByte_ran h.live_issued hs hm hw)).trans ?_
    rw [completed_ran_same hs hm]
    rfl
  exact ⟨last _ .toIdle, last _ .toIdle, last _ .toProgramming, more _, more _, more _⟩

/-- Settles O33. -/
theorem flashStringStepsComplete : Obligations.FlashStringStepsComplete := by
  intro s a d rest ⟨h, hr, hs, hm⟩
  refine ⟨fun hw => ?_, fun hw => ?_, fun hd hw => ?_⟩
  · refine (activeOperation_completes h hr (unlockString_ran h.live_issued hs hm hw)).trans ?_
    rw [completed_ran_tstate hm]
    rfl
  · refine (activeOperation_completes h hr
      (sectorEraseSteps_ran h.live_issued hs hm hw)).trans ?_
    rw [completed_ran_tstate hm]
    rfl
  · refine (operation_completes (u := ran s.tstate .normal
      (fifoTrace s.par s.par.regFlashData (pageProgramString a d)) rest (issued s)) h.1 ?_).trans ?_
    · rw [andThen_assoc, andThen_assoc, activeGate_issued h hr,
        requireTState_eq (s := issued s) hs, andThen_go, require_pos (P := d.length ≤ pageChunk) hd,
        andThen_go, pageTransfer, writeFifoBody_ran h.live_issued hm hw]
      rfl
    · rw [completed_ran_same rfl hm]
      rfl

/-! ### Failures inside an operation -/

/-- The state after statements as `ran` has it, and then a burst that could not be transmitted. -/
theorem writeRegister_ran_fails {t : TState} {m : BusMode} {ev : List Event} {a : RegAddr}
    {d : List Byte} {rest : List WriteResult} {s : State} (h : Live s) :
    writeRegister a d (ran t m ev (.fails :: rest) s) = Flow.halt (raise .transportWrite
      (ran t m (ev ++ [.writeFailed (encodePacket s.par a d)]) rest s)) := by
  rw [writeRegister_fails (live_ran h) rfl]
  simp [ran, emit]

/-- Settles O42: the failing burst ends the operation where it stands. -/
theorem writeEnableFailurePoints : Obligations.WriteEnableFailurePoints := by
  intro s rest h
  obtain ⟨hc, -, hs, hm⟩ := id h
  have hlive := hc.live_issued
  refine ⟨fun hw => flashOperation_fails (u := emit (.writeFailed _)
      { issued s with env := { s.env with writes := rest } }) h ?_,
    fun hw => (flashOperation_fails (f := .transportWrite) (u := ran .cmdAsserted .normal
      [wCs s.par s.par.csLowVal, .writeFailed (encodePacket s.par s.par.regFlashData [0x06, 0x01])]
      rest (issued s)) h ?_).trans ?_⟩
  · rw [writeEnableBody, singleOpcode, csLowStep, requireTState_eq (s := issued s) hs, andThen_go,
      requireNormalMode_eq (s := issued s) hm, andThen_go, writeRegister_fails hlive hw]
    rfl
  · rw [writeEnableBody, singleOpcode, csLowStep_ran hlive hs hm hw, andThen_go, sendLastByte,
      requireTState_eq (ran_tstate ..), andThen_go, requireNormalMode_eq (ran_fifoMode ..),
      andThen_go, writeRegister_ran_fails hlive]
    rfl
  · rw [← hm]
    rfl

/-- Settles O43: the FIFO burst fails after the mode write, before the mode is written back. -/
theorem failedPageLeavesFifoMode : Obligations.FailedPageLeavesFifoMode := by
  intro s a d rest h hd hw
  obtain ⟨hc, -, hs, hm⟩ := id h
  have hlive := hc.live_issued
  refine flashOperation_fails (u := ran .cmdAsserted .fifo _ rest (issued s)) h ?_
  rw [programPageBody, require_pos (P := d.length ≤ pageChunk) hd, andThen_go,
    writeEnableBody_ran hlive hs hm hw, andThen_go, csLowStep_ran (live_ran hlive) rfl rfl rfl,
    ran_ran, ran_par, andThen_go, pageTransfer, writeFifoBody,
    requireNormalMode_eq (ran_fifoMode ..), andThen_go, setBusMode_ran (live_ran hlive) rfl,
    ran_ran, ran_par, andThen_go, writeRegister_ran_fails hlive]
  rfl

/-- Settles O50. -/
theorem unreadableImageFailsFirst : Obligations.UnreadableImageFailsFirst := by
  intro s h ht
  refine operation_fails (u := issued s) h ?_
  rw [sessionOp, requireClosed_eq (s := issued s) ht, andThen_go]

end Sys2Proof.Machine


namespace Sys2Proof.Machine

/-! ## The step and the reset -/

theorem step_issue {s : State} {c : Command} {rest : List HostAction}
    (hhost : s.host = .issue c :: rest) {i : Instr} (hd : decode s.par c = .ok i) :
    step s = exec i { s with host := rest } := by
  simp only [step, hhost, hd]

/-- Settles O11. -/
theorem stepRunsTheIssuedInstruction : Obligations.StepRunsTheIssuedInstruction :=
  fun s c rest hhost => ⟨fun _ hd => step_issue hhost hd, fun e he => by
    simp only [step, hhost, he]⟩

/-- Settles O12. -/
theorem idleBlockWaits : Obligations.IdleBlockWaits := by
  intro s hhost
  constructor <;> intro hb <;> simp [step, hhost, hb]

/-- Settles O13: between operations the step is `reset`, and each field is read off it. -/
theorem hostResetRestoresResetValues : Obligations.HostResetRestoresResetValues := by
  intro s cfg rest hhost
  refine ⟨fun hb => ⟨reset cfg rest s, by simp [step, hhost, hb], ?_⟩,
    fun hb => by simp [step, hhost, hb]⟩
  exact ⟨rfl, rfl, rfl, rfl, rfl, rfl, rfl, rfl, rfl, rfl, rfl, rfl, rfl, rfl, rfl, rfl⟩

/-- Settles O14. -/
theorem resetStateIsTheSpecs : Obligations.ResetStateIsTheSpecs :=
  ⟨rfl, rfl, rfl, rfl, rfl, rfl, rfl, rfl, rfl, rfl, rfl, rfl, rfl⟩

/-- Every reset state with the fixed baud rate meets the invariant: nothing has been done in it. -/
theorem inv_of_reset {par : Params} {cfg : RunConfig} {env : Env} {host : List HostAction}
    (hbaud : cfg.baudRate = 921600) : Inv (State.resetWith par cfg env host) where
  failed_not_busy _ := rfl
  resting_normal _ _ := rfl
  baud_fixed := hbaud
  unready_idle _ _ _ := rfl
  lines_high := ⟨rfl, rfl⟩
  closed_untouched _ := ⟨rfl, rfl, rfl, rfl⟩
  opened_once := rfl
  closed_once := rfl
  write_failure h := nomatch h
  no_silent_failure _ _ h := nomatch h
  early_failure h := h.elim nofun nofun
  busy_connected h := nomatch h
  cursor_aligned h := absurd rfl h
  cursor_bounded := Nat.zero_le _

/-- Settles O53. -/
theorem resetMeetsTheInvariant : Obligations.ResetMeetsTheInvariant := inv_of_reset rfl

theorem operation_reply (body : State → Flow) (s : State) (r : Option Reply) :
    operation body { s with reply := r } = operation body s := rfl

/-- Settles O58: the issue itself clears the reply, and no function of the encoder looks at it. -/
theorem replyIsNeverRead : Obligations.ReplyIsNeverRead := by
  intro i s r
  cases i with
  | encode | bitFrame1 | bitFrame0 | terminator | addressHeader | reservedOp => rfl
  | _ => exact operation_reply _ s r

/-! ## Refusals by a gate -/

/-- Settles O35. -/
theorem busyRefusesEveryOperation : Obligations.BusyRefusesEveryOperation :=
  fun _ _ hb => exec_refused fun hR => absurd hR.2 (by simp [hb])

/-- The statements `f` begin with `k`: what refuses `k` refuses them. -/
def BeginsWith (k f : State → Flow) : Prop := ∃ rest, ∀ s, f s = (k s).andThen rest

namespace BeginsWith

variable {f g k : State → Flow}

theorem head (k g : State → Flow) : BeginsWith k fun s => (k s).andThen g := ⟨g, fun _ => rfl⟩

theorem seq (h : BeginsWith k f) (g : State → Flow) : BeginsWith k fun s => (f s).andThen g := by
  obtain ⟨rest, hf⟩ := h
  exact ⟨fun s => (rest s).andThen g,
    fun s => (congrArg (Flow.andThen · g) (hf s)).trans (andThen_assoc ..)⟩

theorem trans (hk : BeginsWith g k) (hf : BeginsWith k f) : BeginsWith g f := by
  obtain ⟨rest, hf⟩ := hf
  rw [funext hf]
  exact hk.seq rest

theorem after (g : State → Flow) (h : BeginsWith k f) :
    BeginsWith (fun s => (g s).andThen k) fun s => (g s).andThen f := by
  obtain ⟨rest, hf⟩ := h
  exact ⟨rest, fun s => by rw [andThen_assoc, ← funext hf]⟩

theorem refused {s : State} {r : Refusal} (h : BeginsWith k f) (hk : k s = .error r) :
    f s = .error r := by
  obtain ⟨rest, hf⟩ := h
  rw [hf, hk, andThen_error]

end BeginsWith

/-- An instruction whose statements begin with the gate `g`. -/
def GatedBy (g : State → Flow) (i : Instr) : Prop := ∃ f, exec i = operation f ∧ BeginsWith g f

namespace GatedBy

variable {g k : State → Flow} {i : Instr} {s : State}

theorem trans (hk : BeginsWith g k) (h : GatedBy k i) : GatedBy g i := by
  obtain ⟨f, hf, hb⟩ := h
  exact ⟨f, hf, hk.trans hb⟩

theorem refused {r : Refusal} (h : GatedBy g i) (hR : Resting s) (hg : g (issued s) = .error r) :
    exec i s = .refused r := by
  obtain ⟨f, hf, hb⟩ := h
  rw [hf, operation_eq hR, hb.refused hg, conclude_error]

end GatedBy

theorem sendByte_begins (b : Byte) : BeginsWith (requireTState .cmdAsserted) (sendByte b) :=
  (BeginsWith.head ..).seq _

theorem sendLastByte_begins (b : Byte) (next : Closing) :
    BeginsWith (requireTState .cmdAsserted) (sendLastByte b next) :=
  (BeginsWith.head ..).seq _

theorem csHighStep_begins (next : Closing) :
    BeginsWith (requireTState .cmdAsserted) (csHighStep next) :=
  (BeginsWith.head ..).seq _

theorem csLowStep_begins : BeginsWith (requireTState .idle) csLowStep :=
  (BeginsWith.head ..).seq _

theorem unlockString_begins : BeginsWith (requireTState .cmdAsserted) unlockString :=
  ((sendByte_begins _).seq _).seq _

theorem sectorEraseSteps_begins (a : FlashAddr) :
    BeginsWith (requireTState .cmdAsserted) (sectorEraseSteps a) :=
  (sendByte_begins _).seq _

/-- What the rows of an open flash command ask for: activation, and the command open (R107 to
R109). -/
def commandGate (s : State) : Flow := (activeGate s).andThen (requireTState .cmdAsserted)

/-- What a soft reset and an activation ask for (R117, R130). -/
def idleGate (s : State) : Flow := (requireOpen s).andThen (requireTState .idle)

theorem activeGate_begins : BeginsWith requireOpen activeGate := BeginsWith.head ..
theorem flashGate_begins : BeginsWith activeGate flashGate := BeginsWith.head ..
theorem commandGate_begins : BeginsWith activeGate commandGate := BeginsWith.head ..
theorem idleGate_begins : BeginsWith requireOpen idleGate := BeginsWith.head ..

/-- The instructions behind `flashGate` (R105, R158 c and d; CS_LOW by log 10). -/
def needsIdle : Instr → Bool
  | .writeEnable | .wakeUp | .eraseAll | .unlock | .writeFifoReg _ _ | .sectorErase _
  | .programPage _ _ | .program _ | .csLow => true
  | _ => false

/-- The rows behind `commandGate` (R107 to R109, log 10). -/
def needsCommand : Instr → Bool
  | .csHigh _ | .flashWriteEnable | .flashWakeUp | .flashEraseAll | .flashUnlock
  | .flashSectorErase | .flashPageProgram | .flashUnlockString | .flashSectorEraseString _
  | .flashPageProgramPrefix _ _ => true
  | _ => false

theorem gatedBy_flashGate {i : Instr} (h : needsIdle i = true) : GatedBy flashGate i := by
  cases i with
  | writeFifoReg | program => exact ⟨_, rfl, (BeginsWith.head ..).seq _⟩
  | csLow => exact ⟨_, rfl, csLowStep_begins.after _⟩
  | writeEnable | wakeUp | eraseAll | unlock | sectorErase | programPage =>
    exact ⟨_, rfl, BeginsWith.head ..⟩
  | _ => cases h

theorem gatedBy_commandGate {i : Instr} (h : needsCommand i = true) : GatedBy commandGate i := by
  cases i with
  | csHigh next => exact ⟨_, rfl, (csHighStep_begins next).after _⟩
  | flashWriteEnable | flashWakeUp | flashEraseAll =>
    exact ⟨_, rfl, (sendLastByte_begins ..).after _⟩
  | flashUnlock | flashSectorErase | flashPageProgram =>
    exact ⟨_, rfl, (sendByte_begins _).after _⟩
  | flashUnlockString => exact ⟨_, rfl, unlockString_begins.after _⟩
  | flashSectorEraseString a => exact ⟨_, rfl, (sectorEraseSteps_begins a).after _⟩
  | flashPageProgramPrefix => exact ⟨_, rfl, (BeginsWith.head ..).seq _⟩
  | _ => cases h

theorem gatedBy_activeGate {i : Instr} (h : needsIdle i = true ∨ needsCommand i = true) :
    GatedBy activeGate i :=
  h.elim (fun h => (gatedBy_flashGate h).trans flashGate_begins)
    fun h => (gatedBy_commandGate h).trans commandGate_begins

theorem gatedBy_idleGate {i : Instr} (h : i = .softReset ∨ i = .mcuSoftReset ∨ i = .activate) :
    GatedBy idleGate i := by
  obtain rfl | rfl | rfl := h
  · exact ⟨_, rfl, (BeginsWith.head ..).after _⟩
  · exact ⟨_, rfl, (BeginsWith.head ..).after _⟩
  · exact ⟨_, rfl, (((((((BeginsWith.head ..).seq _).seq _).seq _).seq _).seq _).seq _)⟩

section Names

variable {i : Instr} {s : State}

theorem exec_notActivated (hi : needsIdle i = true ∨ needsCommand i = true) (h : Connected s)
    (hr : s.ready = false) : exec i s = .refused .notActivated := by
  refine (gatedBy_activeGate hi).refused h.1 ?_
  rw [activeGate, requireOpen_eq (s := issued s) h.2, andThen_go,
    requireReady_false (s := issued s) hr]

theorem requireOpen_issued_ne (ht : s.transport ≠ .opened) :
    requireOpen (issued s) = .error .transportNotOpen := requireOpen_ne ht

/-- R158 (b), for what looks at the transport first and for what writes or closes at once. -/
theorem exec_transportNotOpen (hR : Resting s) (ht : s.transport ≠ .opened)
    (hi : (needsIdle i = true ∨ needsCommand i = true) ∨
      (i = .softReset ∨ i = .mcuSoftReset ∨ i = .activate) ∨
      (∃ a d, i = .writeReg a d) ∨ i = .closePort) :
    exec i s = .refused .transportNotOpen := by
  obtain hi | hi | ⟨a, d, rfl⟩ | rfl := hi
  · exact ((gatedBy_activeGate hi).trans activeGate_begins).refused hR (requireOpen_issued_ne ht)
  · exact ((gatedBy_idleGate hi).trans idleGate_begins).refused hR (requireOpen_issued_ne ht)
  · refine (operation_eq hR).trans ?_
    rw [writeRegister, transportWrite, if_neg (by exact ht), conclude_error]
  · refine (operation_eq hR).trans ?_
    rw [closeTransport, if_neg (by exact ht), conclude_error]

/-- R158 (b), for what opens the transport. -/
theorem exec_transportNotClosed (hR : Resting s) (ht : s.transport ≠ .closed)
    (hi : i = .openPort ∨ ∃ image, i = .session image) :
    exec i s = .refused .transportNotClosed := by
  obtain rfl | ⟨image, rfl⟩ := hi
  · refine (operation_eq hR).trans ?_
    rw [openTransport, if_neg (by exact ht), conclude_error]
  · refine (operation_eq hR).trans ?_
    rw [sessionOp, requireClosed_ne (s := issued s) ht]
    rfl

end Names

/-- Settles O19. -/
theorem openOnlyOnce : Obligations.OpenOnlyOnce :=
  fun _ h ht => ⟨exec_transportNotClosed h ht (.inl rfl),
    fun image => exec_transportNotClosed h ht (.inr ⟨image, rfl⟩)⟩

/-- Settles O36: the listed instructions are those behind one of the two gates that ask for
activation. -/
theorem activationGate : Obligations.ActivationGate := by
  intro i s hr hi
  have hgate : needsIdle i = true ∨ needsCommand i = true := by
    obtain rfl | rfl | rfl | rfl | ⟨a, d, rfl⟩ | ⟨a, rfl⟩ | ⟨a, d, rfl⟩ | ⟨image, rfl⟩ | rfl |
      hi := hi
    iterate 9 exact .inl rfl
    obtain ⟨next, rfl⟩ | rfl | rfl | rfl | rfl | rfl | rfl | rfl | ⟨a, rfl⟩ | ⟨a, d, rfl⟩ := hi
    iterate 10 exact .inr rfl
  refine ⟨?_, fun h => exec_notActivated hgate h hr⟩
  by_cases hR : Resting s
  · by_cases ht : s.transport = .opened
    · exact ⟨_, exec_notActivated hgate ⟨hR, ht⟩ hr⟩
    · exact ⟨_, exec_transportNotOpen hR ht (.inl hgate)⟩
  · exact exec_refused hR

/-- Settles O37: the three gates, each on a controller state it does not ask for. -/
theorem wrongControllerStateRefused : Obligations.WrongControllerStateRefused := by
  refine ⟨fun i s h hs hi => (gatedBy_idleGate hi).refused h.1 ?_, fun i s h hr hs hi => ?_,
    fun i s h hr hs hi => ?_⟩
  · rw [idleGate, requireOpen_issued h, requireTState_ne (s := issued s) hs]
  · have hgate : needsIdle i = true := by
      obtain rfl | rfl | rfl | rfl | ⟨a, d, rfl⟩ | ⟨a, rfl⟩ | ⟨a, d, rfl⟩ | ⟨image, rfl⟩ | rfl := hi
      all_goals rfl
    refine (gatedBy_flashGate hgate).refused h.1 ?_
    rw [flashGate, activeGate_issued h hr, requireTState_ne (s := issued s) hs]
  · have hgate : needsCommand i = true := by
      obtain ⟨next, rfl⟩ | rfl | rfl | rfl | rfl | rfl | rfl | rfl | ⟨a, rfl⟩ | ⟨a, d, rfl⟩ := hi
      all_goals rfl
    refine (gatedBy_commandGate hgate).refused h.1 ?_
    rw [commandGate, activeGate_issued h hr, requireTState_ne (s := issued s) hs]

/-- Settles O38: the length is looked at after the gate and before the first page. -/
theorem oversizeImageRefused : Obligations.OversizeImageRefused := by
  intro s image h hlen
  refine (operation_eq h.1.1).trans ?_
  rw [programOp, flashGate_issued h,
    require_neg (P := image.length ≤ imageLimit) (Nat.not_le.mpr hlen)]
  rfl

/-- Settles O59: what is not excepted is behind a gate that asks for the open transport, or writes
or closes at once. -/
theorem transportMustBeOpen : Obligations.TransportMustBeOpen := by
  intro i s hR ht hencode hsettle hheader hframe1 hframe0 hterm hopen hsession hreserved
  refine exec_transportNotOpen hR ht ?_
  cases i with
  | encode a d => exact absurd rfl (hencode a d)
  | settle ms => exact absurd rfl (hsettle ms)
  | addressHeader a => exact absurd rfl (hheader a)
  | bitFrame1 => exact absurd rfl hframe1
  | bitFrame0 => exact absurd rfl hframe0
  | terminator => exact absurd rfl hterm
  | openPort => exact absurd rfl hopen
  | session image => exact absurd rfl (hsession image)
  | reservedOp code => exact absurd rfl (hreserved code)
  | softReset | mcuSoftReset | activate => exact .inr (.inl (by simp))
  | writeReg a d => exact .inr (.inr (.inl ⟨a, d, rfl⟩))
  | closePort => exact .inr (.inr (.inr rfl))
  | writeEnable | wakeUp | eraseAll | unlock | writeFifoReg | sectorErase | programPage | program
  | csLow => exact .inl (.inl rfl)
  | _ => exact .inl (.inr rfl)

/-- Settles O22: after the close the transport is neither open nor closed, so that O59 and O19
refuse everything but the functions of the encoder and `settle`. -/
theorem closeIsFinal : Obligations.CloseIsFinal := by
  intro s h
  refine ⟨_, operation_completes h.1 (closeTransport_eq (s := issued s) h.2 h.1.1), rfl, ?_⟩
  intro i hencode hsettle hheader hframe1 hframe0 hterm
  have hR : Resting (completed .ok (emit .closed { issued s with transport := .finished })) :=
    ⟨h.1.1, rfl⟩
  by_cases hopen : i = .openPort ∨ ∃ image, i = .session image
  · exact ⟨_, exec_transportNotClosed hR nofun hopen⟩
  by_cases hreserved : ∃ code, i = .reservedOp code
  · obtain ⟨code, rfl⟩ := hreserved
    exact ⟨_, rfl⟩
  simp only [not_or, not_exists] at hopen hreserved
  exact ⟨_, transportMustBeOpen i _ hR nofun hencode hsettle hheader hframe1 hframe0 hterm hopen.1
    hopen.2 hreserved⟩

/-- Settles O60: what has the activation gate is refused, and `settle` finds the controller idle by
the invariant. -/
theorem onlyTheseRunBeforeActivation : Obligations.OnlyTheseRunBeforeActivation := by
  intro i s t hinv hr h
  have gated : needsIdle i = true ∨ needsCommand i = true → False := by
    intro hi
    obtain ⟨body, hbody, rest, hrest⟩ := gatedBy_activeGate hi
    rw [hbody, funext hrest] at h
    obtain ⟨r, href⟩ := operation_activeGate_unready (body := rest) hr
    cases href.symm.trans h
  cases i with
  | writeEnable | wakeUp | eraseAll | unlock | writeFifoReg | sectorErase | programPage | program
  | csLow => exact (gated (.inl rfl)).elim
  | flashWriteEnable | flashWakeUp | flashEraseAll | flashUnlock | flashSectorErase
  | flashPageProgram | flashUnlockString | flashSectorEraseString | flashPageProgramPrefix
  | csHigh => exact (gated (.inr rfl)).elim
  | reservedOp => cases h
  | settle ms =>
    have hR := (operation_next h).1
    have hidle := hinv.unready_idle hR.1 hR.2 hr
    rw [(settleEndsProgramming s ms hR).2.2 (by simp [hidle])] at h
    cases h
  | _ => simp

end Sys2Proof.Machine


namespace Sys2Proof.Machine

/-! ## The pages of an image (R133, R134) -/

/-- The page with index `k`. -/
def pageAt (image : Image) (k : Nat) : Nat × List Byte :=
  (256 * k, (image.drop (256 * k)).take 256)

theorem pagesOf_eq_map (image : Image) :
    pagesOf image = (List.range (ceilDiv image.length 256)).map (pageAt image) := rfl

theorem lt_ceilDiv_iff {k n : Nat} : k < ceilDiv n 256 ↔ 256 * k < n := by
  unfold ceilDiv
  omega

theorem pagesOf_getElem? {image : Image} {k : Nat} (h : 256 * k < image.length) :
    (pagesOf image)[k]? = some (pageAt image k) := by
  rw [pagesOf_eq_map, List.getElem?_map, List.getElem?_range (lt_ceilDiv_iff.mpr h)]
  rfl

theorem pagesOf_drop {image : Image} {k : Nat} (h : 256 * k < image.length) :
    (pagesOf image).drop k = pageAt image k :: (pagesOf image).drop (k + 1) := by
  obtain ⟨hk, hpage⟩ := List.getElem?_eq_some_iff.mp (pagesOf_getElem? h)
  rw [List.drop_eq_getElem_cons hk, hpage]

theorem pagesOf_drop_all {image : Image} {k : Nat} (h : image.length ≤ 256 * k) :
    (pagesOf image).drop k = [] := by
  rw [List.drop_eq_nil_iff, pagesOf_eq_map, List.length_map, List.length_range]
  exact not_lt.mp (mt lt_ceilDiv_iff.mp (by omega))

/-- The first `k` pages carry the image's bytes up to the end of page `k - 1`. -/
theorem flatMap_pageAt (image : Image) (k : Nat) :
    ((List.range k).map (pageAt image)).flatMap Prod.snd = image.take (256 * k) := by
  induction k with
  | zero => simp
  | succ k ih =>
    rw [List.range_succ, List.map_append, List.flatMap_append, ih, Nat.mul_succ, List.take_add]
    simp [pageAt]

theorem pagesOf_flatMap (image : Image) : (pagesOf image).flatMap Prod.snd = image := by
  rw [pagesOf_eq_map, flatMap_pageAt, List.take_of_length_le]
  exact not_lt.mp (mt lt_ceilDiv_iff.mpr (lt_irrefl _))

/-- Settles O48: the pages before page `k` are the image's first `256 k` bytes, and `256 k` is below
the length for every page there is. -/
theorem pagesCoverTheImage : Obligations.PagesCoverTheImage := by
  intro image
  refine ⟨pagesOf_flatMap image, fun page hpage => ?_, fun k page hpage => ?_⟩
  · rw [pagesOf_eq_map] at hpage
    obtain ⟨k, hk, rfl⟩ := List.mem_map.mp hpage
    have hlt := lt_ceilDiv_iff.mp (List.mem_range.mp hk)
    simp only [pageAt, List.length_take, List.length_drop]
    omega
  · have hk : k < ceilDiv image.length 256 := by
      simpa [pagesOf_eq_map] using (List.getElem?_eq_some_iff.mp hpage).1
    have hlt := lt_ceilDiv_iff.mp hk
    obtain rfl : pageAt image k = page := Option.some.inj ((pagesOf_getElem? hlt).symm.trans hpage)
    refine ⟨rfl, ?_⟩
    rw [pagesOf_eq_map, ← List.map_take, List.take_range, Nat.min_eq_left hk.le, flatMap_pageAt,
      List.length_take, Nat.min_eq_left hlt.le]
    rfl

/-- A quantity that is `b` for every page and `a` more for the first page of a sector, summed over
the pages: `a` for each sector begun and `b` for each page (R133). -/
theorem sum_pagesOf (image : Image) (a b : Nat) :
    ((pagesOf image).map fun page => if page.1 % 4096 = 0 then a + b else b).sum =
      a * ceilDiv image.length 4096 + b * ceilDiv image.length 256 := by
  have hrange : ∀ n, ((List.range n).map fun k => if 256 * k % 4096 = 0 then a + b else b).sum =
      a * ceilDiv n 16 + b * n := by
    intro n
    induction n with
    | zero => simp [ceilDiv]
    | succ n ih =>
      have hstep : ceilDiv (n + 1) 16 = ceilDiv n 16 + if 256 * n % 4096 = 0 then 1 else 0 := by
        unfold ceilDiv
        split <;> omega
      rw [List.range_succ, List.map_append, List.sum_append, ih, hstep, List.map_singleton,
        List.sum_singleton]
      split <;> ring
  have hsectors : ceilDiv (ceilDiv image.length 256) 16 = ceilDiv image.length 4096 := by
    unfold ceilDiv
    omega
  rw [pagesOf_eq_map, List.map_map, ← hsectors]
  exact hrange _

/-! ## Programming an image -/

theorem sum_pageWrites (image : Image) :
    ((pagesOf image).map fun page => pageWrites page.1).sum =
      7 * ceilDiv image.length 4096 + 7 * ceilDiv image.length 256 := sum_pagesOf image 7 7

theorem sum_pageWaits (image : Image) :
    ((pagesOf image).map fun page => pageWaits page.1).sum =
      300 * ceilDiv image.length 4096 + 10 * ceilDiv image.length 256 := sum_pagesOf image 300 10

/-- The cursor stands at page `k` of the image, or past its last page at the end (R132). -/
structure AtPage (image : Image) (k : Nat) (s : State) : Prop where
  cursor : s.cursor = min (256 * k) image.length
  remaining : s.remaining = image.length - 256 * k

/-- The state after the work on `pages`, the last of the image (R133). -/
def pagesDone (image : Image) (pages : List (Nat × List Byte)) (rest : List WriteResult)
    (s : State) : State :=
  { waited (pages.map fun page => pageWaits page.1).sum
      (ran .idle .normal (pages.flatMap (pageTrace s.par)) rest s) with
    cursor := image.length
    remaining := 0 }

theorem pagesDone_nil {image : Image} {s : State} (hs : s.tstate = .idle)
    (hm : s.fifoMode = .normal) (hc : s.cursor = image.length) (hr : s.remaining = 0) :
    pagesDone image [] s.env.writes s = s := by
  cases s
  simp_all [pagesDone, waited, ran]

/-- The transport writes of a list of pages. -/
def writesOf (pages : List (Nat × List Byte)) : Nat := (pages.map fun page => pageWrites page.1).sum

theorem programLoop_finished {image : Image} {rest : List WriteResult} {n k : Nat} {s : State}
    (hs : s.tstate = .idle) (hm : s.fifoMode = .normal) (hk : AtPage image k s)
    (h0 : s.remaining = 0)
    (hw : s.env.writes = List.replicate (writesOf ((pagesOf image).drop k)) .ok ++ rest) :
    programLoop image n s = Flow.go (pagesDone image ((pagesOf image).drop k) rest s) := by
  obtain ⟨hc, hr⟩ := hk
  have hlen : image.length ≤ 256 * k := by omega
  rw [Nat.min_eq_right hlen] at hc
  rw [pagesOf_drop_all hlen] at hw ⊢
  have hrest : s.env.writes = rest := hw
  rw [← hrest, pagesDone_nil hs hm hc h0]
  cases n with
  | zero => rw [programLoop]
  | succ n => rw [programLoop, if_pos h0]

/-- The loop of R132, started at page `k`, does what is left of R133. -/
theorem programLoop_ran {image : Image} {rest : List WriteResult} (n : Nat) :
    ∀ (k : Nat) (s : State), Live s → s.tstate = .idle → s.fifoMode = .normal →
      AtPage image k s → s.remaining ≤ n →
      s.env.writes = List.replicate (writesOf ((pagesOf image).drop k)) .ok ++ rest →
      programLoop image n s = Flow.go (pagesDone image ((pagesOf image).drop k) rest s) := by
  induction n with
  | zero => exact fun k s _ hs hm hk hn => programLoop_finished hs hm hk (Nat.le_zero.mp hn)
  | succ n ih =>
    intro k s h hs hm hk hn hw
    by_cases h0 : s.remaining = 0
    · exact programLoop_finished hs hm hk h0 hw
    obtain ⟨hc, hr⟩ := hk
    have hlt : 256 * k < image.length := by omega
    rw [Nat.min_eq_left hlt.le] at hc
    have hpage : pageAt image k =
        (s.cursor, imageSlice image s.cursor (chunkLen s.remaining)) := by
      rw [pageAt, hc, imageSlice, hr, chunkLen, pageChunk, ← List.length_drop,
        ← List.take_eq_take_min]
    rw [pagesOf_drop hlt, hpage] at hw ⊢
    rw [writesOf, List.map_cons, List.sum_cons, List.replicate_add, List.append_assoc] at hw
    have hnext : AtPage image (k + 1) { s with
        cursor := s.cursor + chunkLen s.remaining
        remaining := s.remaining - chunkLen s.remaining } := by
      constructor <;> simp only [hc, hr, chunkLen, pageChunk] <;> omega
    have hfuel : s.remaining - chunkLen s.remaining ≤ n := by
      rw [chunkLen, pageChunk]
      omega
    rw [programLoop, if_neg h0, programPass_ran h hs hm hw, andThen_go,
      ih (k + 1) _ (by exact h) rfl rfl (by exact ⟨hnext.cursor, hnext.remaining⟩)
        (by exact hfuel) (by rfl)]
    simp [pagesDone, waited, ran, Nat.add_assoc]

/-- What `program` leaves after its soft reset (R132, R133). -/
def programmed (image : Image) (rest : List WriteResult) (s : State) : State :=
  { s with
    ready := false
    cursor := image.length
    remaining := 0
    trace := s.trace ++ programTrace s.par image
    env := { s.env with
      writes := rest
      clock := s.env.clock + (300 * ceilDiv image.length 4096 + 10 * ceilDiv image.length 256) } }

theorem programBody_ran {image : Image} {rest : List WriteResult} {s : State} (h : Live s)
    (hs : s.tstate = .idle) (hm : s.fifoMode = .normal)
    (hw : WritesSucceed (7 * ceilDiv image.length 4096 + 7 * ceilDiv image.length 256 + 1) rest s) :
    programBody image s = Flow.go (programmed image rest s) := by
  have hwrites : s.env.writes =
      List.replicate (writesOf (pagesOf image)) WriteResult.ok ++ WriteResult.ok :: rest := by
    rw [hw, List.replicate_succ', writesOf, sum_pageWrites, List.append_assoc]
    rfl
  have hstart : AtPage image 0 { s with cursor := 0, remaining := image.length } :=
    ⟨(Nat.zero_min _).symm, rfl⟩
  rw [programBody, programLoop_ran image.length 0 _ (by exact h) (by exact hs) (by exact hm)
      (by exact hstart) (by exact le_rfl) (by exact hwrites), andThen_go,
    softResetBody_ran (by exact h) (by rfl) (by rfl)]
  simp [pagesDone, programmed, programTrace, waited, ran, ← hs, ← hm, sum_pageWaits]

theorem programOp_ran {image : Image} {rest : List WriteResult} {s : State} (h : Live s)
    (hr : s.ready = true) (hs : s.tstate = .idle) (hm : s.fifoMode = .normal)
    (hlen : image.length ≤ 2 ^ 24)
    (hw : WritesSucceed (7 * ceilDiv image.length 4096 + 7 * ceilDiv image.length 256 + 1) rest s) :
    programOp image s = Flow.go (programmed image rest s) := by
  rw [programOp, flashGate_eq h.1 hr hs, andThen_go,
    require_pos (P := image.length ≤ imageLimit) hlen, andThen_go, programBody_ran h hs hm hw]

/-- Settles O46: the loop's bursts and waits summed over the pages. -/
theorem programCompletes : Obligations.ProgramCompletes := by
  intro s image rest h hlen hw
  obtain ⟨hc, hr, hs, hm⟩ := h
  refine (operation_completes hc.1
    (programOp_ran (s := issued s) hc.live_issued hr hs hm hlen hw)).trans ?_
  simp only [programmed, Nat.add_assoc]
  rfl

/-! ## Activation and the whole session -/

/-- What `activate` leaves after a flood of `n` writes (R130). -/
def activated (n : Nat) (ticks : List Tick) (rest : List WriteResult) (clock : Nat) (s : State) :
    State :=
  { s with
    ready := true
    lineA := .high
    lineB := .high
    trace := s.trace ++ activateTrace s.par n
    env := { s.env with writes := rest, ticks := ticks, clock := clock } }

theorem activateBody_ran {first last : Nat} {before : List Nat} {restT : List Tick}
    {restW : List WriteResult} {s : State} (h : Live s) (hs : s.tstate = .idle)
    (hm : s.fifoMode = .normal)
    (hc : FloodClock s.cfg.activationDurationMs first before last restT s)
    (hw : WritesSucceed (before.length + 5) restW s) :
    activateBody s = Flow.go (activated before.length restT restW
      (s.env.clock + 100 + first + before.sum + last) s) := by
  have hwrites : s.env.writes = .ok :: (List.replicate before.length WriteResult.ok ++
      (List.replicate 4 WriteResult.ok ++ restW)) := by
    rw [hw, List.replicate_succ, List.replicate_add, List.cons_append, List.append_assoc]
  -- With the state taken apart, the fields of the states in between are read off directly.
  cases s
  dsimp only at hs hm
  subst hs hm
  rw [activateBody, requireOpen_eq h.1, andThen_go, requireTState_eq (by rfl), andThen_go,
    resetPulse_eq h, andThen_go, softResetBody_ran (by exact h) (by rfl) (by exact hwrites),
    andThen_go, flood_ran (before := before) (by exact h) (by exact hc) (by rfl), andThen_go,
    writeRegister_ran (by exact h) (by rfl), andThen_go, cpuStop_ran (by exact h) (by rfl),
    andThen_go, wakeUpBody, singleOpcode_ran (by exact h) (by rfl) (by rfl) (by rfl),
    andThen_go]
  simp [activated, activateTrace, ran, ticked, waited, closingState, fcWakeUp, wSpeed]

/-- Settles O44. -/
theorem activateCompletes : Obligations.ActivateCompletes := by
  intro s first before last restT restW h hs hm hc hw
  exact operation_completes h.1 (activateBody_ran (s := issued s) h.live_issued hs hm hc hw)

/-- The wait of a session for its erase-all, of exactly the least length (R135). -/
theorem settleBody_ran {s : State} (h : Live s) (hs : s.tstate = .programming) :
    settleBody s.par.eraseAllMs s = Flow.go { emit (.delay s.par.eraseAllMs)
      (waited s.par.eraseAllMs s) with tstate := .idle } := by
  rw [settleBody, requireTState_eq hs, andThen_go,
    require_pos (P := s.par.eraseAllMs ≤ s.par.eraseAllMs) le_rfl, andThen_go, delay_eq h.2,
    andThen_go]
  rfl

theorem sessionOp_some {image : Image} {s : State} (ht : s.transport = .closed) :
    sessionOp (some image) s = sessionBody image s := by
  rw [sessionOp, requireClosed_eq ht, andThen_go]

/-- Settles O49: the operations of R135 one after another, each from the state the one before left.
-/
theorem sessionCompletes : Obligations.SessionCompletes := by
  intro s image first before last restO restT restW h ht hs hm hlen ho hc hw
  have hwrites : s.env.writes = List.replicate (before.length + 5) WriteResult.ok ++
      (List.replicate 6 WriteResult.ok ++ (List.replicate (7 * ceilDiv image.length 4096 +
        7 * ceilDiv image.length 256 + 1) WriteResult.ok ++ restW)) := by
    rw [hw, List.replicate_add (before.length + 11), List.replicate_add (before.length + 5) 6,
      List.append_assoc, List.append_assoc]
  have hf : (issued s).fault = none := h.1
  cases s
  dsimp only at hs hm
  subst hs hm
  refine (operation_eq (body := sessionOp (some image)) h).trans ?_
  rw [sessionOp_some (by exact ht), sessionBody,
    openTransport_opens (by exact ht) (by exact h.1) (by exact ho), andThen_go,
    activateBody_ran (before := before) (by exact ⟨rfl, hf⟩) (by rfl) (by rfl) (by exact hc)
      (by exact hwrites), andThen_go,
    unlockBody_ran (by exact ⟨rfl, hf⟩) (by rfl) (by rfl) (by rfl), andThen_go,
    eraseAllBody, singleOpcode_ran (by exact ⟨rfl, hf⟩) (by rfl) (by rfl) (by rfl), andThen_go,
    settleBody_ran (by exact ⟨rfl, hf⟩) (by rfl), andThen_go,
    programOp_ran (by exact ⟨rfl, hf⟩) (by rfl) (by rfl) (by rfl) hlen (by rfl), andThen_go,
    closeTransport_eq (by rfl) (by exact hf), conclude_go]
  simp [sessionTrace, programmed, activated, ran, waited, emit, completed, issued,
    fcEraseAll, Nat.add_assoc]

end Sys2Proof.Machine


namespace Sys2Proof.Machine

/-! ## Measures of the programming trace (R119, R133) -/

/-- A measure that adds up over a trace adds up over the pieces it is made of. -/
theorem measure_flatMap {α : Type} {m : List Event → Nat} (hnil : m [] = 0)
    (happ : ∀ a b, m (a ++ b) = m a + m b) (f : α → List Event) (l : List α) :
    m (l.flatMap f) = (l.map fun x => m (f x)).sum := by
  induction l with
  | nil => exact hnil
  | cons x xs ih => rw [List.flatMap_cons, happ, ih, List.map_cons, List.sum_cons]

theorem burstCount_append (a b : List Event) :
    burstCount (a ++ b) = burstCount a + burstCount b := by
  simp [burstCount]

theorem bytesSent_append (a b : List Event) : bytesSent (a ++ b) = bytesSent a + bytesSent b := by
  simp [bytesSent]

theorem waitTotal_append (a b : List Event) : waitTotal (a ++ b) = waitTotal a + waitTotal b := by
  simp [waitTotal]

theorem burstCount_pageTrace (p : Params) (page : Nat × List Byte) :
    burstCount (pageTrace p page) = if page.1 % 4096 = 0 then 7 + 7 else 7 := by
  unfold pageTrace
  split <;> rfl

theorem waitTotal_pageTrace (p : Params) (page : Nat × List Byte) :
    waitTotal (pageTrace p page) = if page.1 % 4096 = 0 then 300 + 10 else 10 := by
  unfold pageTrace
  split <;> simp [waitTotal, waitOf, sectorEraseTrace, programPageTrace, fifoTrace, opcodeTrace,
    wCs, wData, wExt, burst]

theorem bytesSent_sectorEraseTrace (p : Params) (a : FlashAddr) :
    bytesSent (sectorEraseTrace p a) = 3590 := by
  simp [bytesSent, sectorEraseTrace, opcodeTrace, wCs, wData, burst, burstOf,
    List.filterMap_cons, encodePacket_length]

theorem bytesSent_programPageTrace (p : Params) (a : FlashAddr) (d : List Byte) :
    bytesSent (programPageTrace p a d) = 3750 + 80 * d.length := by
  simp [bytesSent, programPageTrace, fifoTrace, opcodeTrace, wCs, wData, wExt, burst, burstOf,
    List.filterMap_cons, encodePacket_length]
  omega

theorem bytesSent_pageTrace (p : Params) (page : Nat × List Byte) :
    bytesSent (pageTrace p page) =
      (if page.1 % 4096 = 0 then 3590 + 3750 else 3750) + 80 * page.2.length := by
  rw [pageTrace, bytesSent_append, bytesSent_programPageTrace]
  split
  · rw [bytesSent_sectorEraseTrace, ← Nat.add_assoc]
  · rw [← Nat.add_assoc]
    rfl

theorem sum_pageLengths (image : Image) :
    ((pagesOf image).map fun page => page.2.length).sum = image.length := by
  rw [← List.length_flatMap, pagesOf_flatMap]

/-- Settles O47: page by page, each measure is what the page has and what its sector's erase adds.
-/
theorem programTraceCounts : Obligations.ProgramTraceCounts := by
  intro p image
  refine ⟨?_, ?_, ?_⟩
  · rw [programTrace, burstCount_append, measure_flatMap rfl burstCount_append]
    simp only [burstCount_pageTrace, sum_pagesOf]
    rfl
  · rw [programTrace, bytesSent_append, measure_flatMap rfl bytesSent_append]
    have hsoft : bytesSent [wMcu p] = 490 := by
      simp [bytesSent, wMcu, burst, burstOf, encodePacket_length]
    simp only [bytesSent_pageTrace, List.sum_map_add, sum_pagesOf, List.sum_map_mul_left,
      sum_pageLengths, hsoft]
  · rw [programTrace, waitTotal_append, measure_flatMap rfl waitTotal_append]
    simp only [waitTotal_pageTrace, sum_pagesOf]
    rfl

/-! ## What the target receives (R35, R36, R55 to R58; log 23) -/

/-- The command strings the target receives from `events`, its bus in `mode` and its open command,
if one is open, holding `cur`. -/
def commandsFrom (p : Params) (mode : Option BusMode) (cur : Option (List Byte))
    (events : List Event) : List (List Byte) :=
  flashCommands p cur (regWrites p mode events)

theorem commandsFrom_delay (p : Params) (mode : Option BusMode) (cur : Option (List Byte))
    (ms : Nat) (rest : List Event) :
    commandsFrom p mode cur (.delay ms :: rest) = commandsFrom p mode cur rest := rfl

theorem commandsFrom_burst (p : Params) (mode : Option BusMode) (cur : Option (List Byte))
    (a : RegAddr) (d : List Byte) (rest : List Event) :
    commandsFrom p mode cur (burst p a d :: rest) = flashCommands p cur (burstWrites mode a 0 d ++
      regWrites p ((burstWrites mode a 0 d).foldl (modeAfter p) mode) rest) := by
  simp only [commandsFrom, burst, regWrites, receive_encodePacket]

theorem registerAt_meaningful {a : RegAddr} (h : a.toNat < 2 ^ addrMeaningfulBits) :
    registerAt a.toNat = some a := by
  rw [registerAt, if_pos h, BitVec.ofNat_toNat, BitVec.setWidth_eq]

theorem burstWrites_single {mode : Option BusMode} {a : RegAddr}
    (h : a.toNat < 2 ^ addrMeaningfulBits) (b : Byte) :
    burstWrites mode a 0 [b] = [⟨some a, b⟩] := by
  simp [burstWrites, landing, registerAt_meaningful h]

theorem burstWrites_fifo {a : RegAddr} (h : a.toNat < 2 ^ addrMeaningfulBits) (i : Nat)
    (d : List Byte) : burstWrites (some .fifo) a i d = d.map fun b => ⟨some a, b⟩ := by
  induction d generalizing i with
  | nil => rfl
  | cons b bs ih =>
    rw [burstWrites, ih, List.map_cons]
    simp [landing, registerAt_meaningful h]

/-- A write to a register other than the mode register leaves the bus mode. -/
theorem foldl_modeAfter_ne {p : Params} {a : RegAddr} (h : a ≠ p.regExtMode) (d : List Byte)
    (mode : Option BusMode) :
    (d.map fun b => (⟨some a, b⟩ : RegWrite)).foldl (modeAfter p) mode = mode := by
  induction d with
  | nil => rfl
  | cons b bs ih => simpa [modeAfter, h] using ih

theorem flashCommands_data {p : Params} (h : p.regFlashData ≠ p.regFlashCs) (d bytes : List Byte)
    (ws : List RegWrite) :
    flashCommands p (some bytes) ((d.map fun b => ⟨some p.regFlashData, b⟩) ++ ws) =
      flashCommands p (some (bytes ++ d)) ws := by
  induction d generalizing bytes with
  | nil => simp
  | cons b bs ih => simp [flashCommands, h, ih]

/-- R40: no two of the registers that the flash commands use are the same. -/
theorem registers_distinct {p : Params} (hv : p.valid) :
    p.regFlashData ≠ p.regFlashCs ∧ p.regFlashData ≠ p.regExtMode ∧ p.regFlashCs ≠ p.regExtMode ∧
      p.regFlashData ≠ p.regMcuCtrl ∧ p.regFlashCs ≠ p.regMcuCtrl := by
  obtain ⟨-, hnodup, -⟩ := hv
  simp only [List.nodup_cons, List.mem_cons, not_or] at hnodup
  obtain ⟨⟨hdc, hde, hdm, -⟩, ⟨hce, hcm, -⟩, -⟩ := hnodup
  exact ⟨hdc, hde, hce, hdm, hcm⟩

section Target

variable {p : Params} (hv : p.valid) (hm : p.meaningful) {mode : Option BusMode}
  {cur : Option (List Byte)} {rest : List Event}
include hv hm

/-- Chip-select low opens a command, whatever was open. -/
theorem commandsFrom_csLow :
    commandsFrom p mode cur (wCs p p.csLowVal :: rest) = commandsFrom p mode (some []) rest := by
  obtain ⟨-, -, hce, -⟩ := registers_distinct hv
  obtain ⟨-, -, -, -, hlow⟩ := hv
  obtain ⟨-, hcs, -⟩ := hm
  rw [wCs, commandsFrom_burst, burstWrites_single hcs]
  simp [flashCommands, commandsFrom, modeAfter, hce, hlow]

/-- Chip-select high ends the open command. -/
theorem commandsFrom_csHigh {bytes : List Byte} :
    commandsFrom p mode (some bytes) (wCs p 0x01 :: rest) =
      bytes :: commandsFrom p mode none rest := by
  obtain ⟨-, -, hce, -⟩ := registers_distinct hv
  obtain ⟨-, hcs, -⟩ := hm
  rw [wCs, commandsFrom_burst, burstWrites_single hcs]
  simp [flashCommands, commandsFrom, modeAfter, hce, csHighVal]

/-- A byte for the flash goes into the open command. -/
theorem commandsFrom_byte {bytes : List Byte} (b : Byte) :
    commandsFrom p mode (some bytes) (wData p [b] :: rest) =
      commandsFrom p mode (some (bytes ++ [b])) rest := by
  obtain ⟨hdc, hde, -⟩ := registers_distinct hv
  obtain ⟨hdata, -⟩ := hm
  rw [wData, commandsFrom_burst, burstWrites_single hdata]
  simp [flashCommands, commandsFrom, modeAfter, hde, hdc]

/-- R108: in normal mode the byte after a byte for the flash lands on chip-select. -/
theorem commandsFrom_lastByte {bytes : List Byte} (b : Byte) :
    commandsFrom p (some .normal) (some bytes) (wData p [b, 0x01] :: rest) =
      (bytes ++ [b]) :: commandsFrom p (some .normal) none rest := by
  obtain ⟨hdc, hde, hce, -⟩ := registers_distinct hv
  obtain ⟨hadjacent, -⟩ := hv
  obtain ⟨hdata, hcs, -⟩ := hm
  have hwrites : burstWrites (some .normal) p.regFlashData 0 [b, 0x01] =
      [⟨some p.regFlashData, b⟩, ⟨some p.regFlashCs, 0x01⟩] := by
    have hnext := registerAt_meaningful hcs
    rw [hadjacent] at hnext
    simp [burstWrites, landing, registerAt_meaningful hdata, hnext]
  rw [wData, commandsFrom_burst, hwrites]
  simp [flashCommands, commandsFrom, modeAfter, hde, hce, hdc, csHighVal]

/-- R116: in FIFO mode every byte of a burst goes to the flash. -/
theorem commandsFrom_fifo {bytes : List Byte} (d : List Byte) :
    commandsFrom p (some .fifo) (some bytes) (wData p d :: rest) =
      commandsFrom p (some .fifo) (some (bytes ++ d)) rest := by
  obtain ⟨hdc, hde, -⟩ := registers_distinct hv
  obtain ⟨hdata, -⟩ := hm
  rw [wData, commandsFrom_burst, burstWrites_fifo hdata, foldl_modeAfter_ne hde,
    flashCommands_data hdc, commandsFrom]

/-- The two values of the mode register set the bus mode and are in no command. -/
theorem commandsFrom_fifoOn :
    commandsFrom p mode cur (wExt p p.extModeFifoVal :: rest) =
      commandsFrom p (some .fifo) cur rest := by
  obtain ⟨-, hde, hce, -⟩ := registers_distinct hv
  obtain ⟨-, -, hext, -⟩ := hm
  rw [wExt, commandsFrom_burst, burstWrites_single hext]
  simp [flashCommands, commandsFrom, modeAfter, hde.symm, hce.symm]

theorem commandsFrom_fifoOff :
    commandsFrom p mode cur (wExt p p.extModeNormalVal :: rest) =
      commandsFrom p (some .normal) cur rest := by
  obtain ⟨-, hde, hce, -⟩ := registers_distinct hv
  obtain ⟨-, -, hmodes, -⟩ := hv
  obtain ⟨-, -, hext, -⟩ := hm
  rw [wExt, commandsFrom_burst, burstWrites_single hext]
  simp [flashCommands, commandsFrom, modeAfter, hde.symm, hce.symm, hmodes.symm]

/-- A soft reset at the end of a trace is in no command. -/
theorem commandsFrom_softReset : commandsFrom p mode cur [wMcu p] = [] := by
  obtain ⟨-, -, -, hdm, hcm⟩ := registers_distinct hv
  obtain ⟨-, -, -, hmcu, -⟩ := hm
  rw [wMcu, commandsFrom_burst, burstWrites_single hmcu]
  simp [flashCommands, regWrites, hdm.symm, hcm.symm]

theorem commandsFrom_opcode (op : Byte) :
    commandsFrom p (some .normal) cur (opcodeTrace p op ++ rest) =
      [op] :: commandsFrom p (some .normal) none rest := by
  rw [opcodeTrace, List.cons_append, commandsFrom_csLow hv hm, List.cons_append,
    commandsFrom_lastByte hv hm, List.nil_append, List.nil_append]

theorem commandsFrom_unlock :
    commandsFrom p (some .normal) cur (unlockTrace p ++ rest) =
      [0x01, 0x00, 0x00] :: commandsFrom p (some .normal) none rest := by
  simp only [unlockTrace, List.cons_append, List.nil_append, commandsFrom_csLow hv hm,
    commandsFrom_byte hv hm, commandsFrom_lastByte hv hm]

theorem commandsFrom_sectorErase (a : FlashAddr) :
    commandsFrom p (some .normal) cur (sectorEraseTrace p a ++ rest) =
      [0x06] :: sectorEraseString a :: commandsFrom p (some .normal) none rest := by
  simp only [sectorEraseTrace, List.append_assoc, commandsFrom_opcode hv hm, List.cons_append,
    List.nil_append, commandsFrom_csLow hv hm, commandsFrom_byte hv hm, commandsFrom_lastByte hv hm,
    commandsFrom_delay]
  rfl

theorem commandsFrom_programPage (a : FlashAddr) (d : List Byte) :
    commandsFrom p (some .normal) cur (programPageTrace p a d ++ rest) =
      [0x06] :: pageProgramString a d :: commandsFrom p (some .normal) none rest := by
  have hfifo : ∀ d, burst p p.regFlashData d = wData p d := fun _ => rfl
  simp only [programPageTrace, fifoTrace, hfifo, List.append_assoc, commandsFrom_opcode hv hm,
    List.cons_append, List.nil_append, commandsFrom_csLow hv hm, commandsFrom_fifoOn hv hm,
    commandsFrom_fifo hv hm, commandsFrom_fifoOff hv hm, commandsFrom_csHigh hv hm,
    commandsFrom_delay]
  rfl

theorem commandsFrom_page (page : Nat × List Byte) :
    commandsFrom p (some .normal) cur (pageTrace p page ++ rest) =
      pageCommands page ++ commandsFrom p (some .normal) none rest := by
  unfold pageTrace pageCommands
  split <;>
    simp only [List.append_assoc, List.nil_append, List.cons_append, commandsFrom_sectorErase hv hm,
      commandsFrom_programPage hv hm]

theorem commandsFrom_pages (pages : List (Nat × List Byte)) :
    commandsFrom p (some .normal) none (pages.flatMap (pageTrace p) ++ rest) =
      pages.flatMap pageCommands ++ commandsFrom p (some .normal) none rest := by
  induction pages with
  | nil => rfl
  | cons page pages ih =>
    rw [List.flatMap_cons, List.append_assoc, commandsFrom_page hv hm, ih, List.flatMap_cons,
      List.append_assoc]

end Target

/-- Settles O51: the string of each operation, with nothing after it. -/
theorem operationsSendTheirCommandStrings : Obligations.OperationsSendTheirCommandStrings := by
  intro p a d hv hm
  have hopcode := fun op =>
    commandsFrom_opcode (cur := none) (rest := []) hv hm op
  have hunlock := commandsFrom_unlock (cur := none) (rest := []) hv hm
  have herase := commandsFrom_sectorErase (cur := none) (rest := []) hv hm a
  have hpage := commandsFrom_programPage (cur := none) (rest := []) hv hm a d
  rw [List.append_nil] at hunlock herase hpage
  simp only [List.append_nil] at hopcode
  exact ⟨hopcode _, hopcode _, hopcode _, hunlock, herase, hpage⟩

/-- Settles O52: page by page, and the soft reset at the end adds nothing. -/
theorem programSendsTheImage : Obligations.ProgramSendsTheImage := by
  intro p image hv hm
  have hpages := commandsFrom_pages (rest := [wMcu p]) hv hm (pagesOf image)
  rw [commandsFrom_softReset hv hm, List.append_nil] at hpages
  exact hpages

end Sys2Proof.Machine


namespace Sys2Proof.Machine

/-! ## What each instruction's statements keep

`exec_next` asks of a relation that every primitive keeps it; here each instruction asks only for
the primitives it uses, so that what an operation leaves alone can be said operation by operation.
-/

/-- The instructions that move the controller (R105). -/
def movesController : Instr → Bool
  | .writeEnable | .wakeUp | .eraseAll | .unlock | .sectorErase _ | .programPage _ _ | .settle _
  | .activate | .program _ | .session _ | .flashWriteEnable | .flashWakeUp | .flashEraseAll
  | .flashUnlockString | .flashSectorEraseString _ | .csLow | .csHigh _ => true
  | _ => false

/-- The instructions with a FIFO transfer (R114). -/
def usesFifo : Instr → Bool
  | .writeFifoReg _ _ | .programPage _ _ | .flashPageProgramPrefix _ _ | .program _
  | .session _ => true
  | _ => false

/-- The instructions that raise the activation gate, and pulse the lines and read the clock for it
(R130). -/
def activates : Instr → Bool
  | .activate | .session _ => true
  | _ => false

/-- The instructions with a soft reset (R117). -/
def restarts : Instr → Bool
  | .softReset | .mcuSoftReset | .activate | .program _ | .session _ => true
  | _ => false

/-- The instructions that move the cursor (R132). -/
def programs : Instr → Bool
  | .program _ | .session _ => true
  | _ => false

/-- The instructions that open the transport (R90). -/
def opensPort : Instr → Bool
  | .openPort | .session _ => true
  | _ => false

/-- The instructions that close the transport (R97). -/
def closesPort : Instr → Bool
  | .closePort | .session _ => true
  | _ => false

/-- `R` is kept by every primitive that the statements of `i` use. -/
structure OpFrame (i : Instr) (R : State → Bool → State → Prop) : Prop extends Frame R where
  delay : KeepsDelay R
  tstate : movesController i = true → KeepsTState R
  fifo : usesFifo i = true → KeepsFifo R
  pulse : activates i = true → Keeps R resetPulse
  clock : activates i = true → KeepsClock R
  activated : activates i = true → ∀ s, R s true { s with ready := true }
  restarted : restarts i = true → KeepsReady R
  start : programs i = true → KeepsStart R
  advance : programs i = true → KeepsAdvance R
  opens : opensPort i = true → Keeps R openTransport
  closes : closesPort i = true → Keeps R closeTransport
  unreadable : i = .session none →
    ∀ s, s.transport = .closed → R s false (raise .imageRead s)

/-- The statements of a session between its open and its close (R135). -/
def sessionMain (image : Image) (s : State) : Flow :=
  ((((activateBody s).andThen unlockBody).andThen eraseAllBody).andThen
    fun s => settleBody s.par.eraseAllMs s).andThen (programOp image)

theorem sessionBody_eq (image : Image) (s : State) :
    sessionBody image s =
      (openTransport s).andThen fun s => (sessionMain image s).andThen closeTransport := by
  simp only [sessionBody, sessionMain, andThen_assoc]

section Keeps

variable {R : State → Bool → State → Prop} {image : Image}

/-- A relation that is kept by every primitive but the open and the close is kept by what a session
does between them. -/
theorem Frame.sessionMain (hR : Frame R) (hT : KeepsTState R) (hM : KeepsFifo R)
    (hD : KeepsDelay R) (hC : KeepsClock R) (hL : Keeps R Sys2Proof.Machine.resetPulse)
    (hS : KeepsReady R) (hA : ∀ s, R s true { s with ready := true }) (hI : KeepsStart R)
    (hP : KeepsAdvance R) :
    Keeps R (Sys2Proof.Machine.sessionMain image) :=
  hR.seq (hR.seq (hR.seq (hR.seq (hR.activateBody hT hC hL hS hA) (hR.unlockBody hT))
    (hR.singleOpcode hT _ _)) (fun s q h => hR.settleBody hT hD _ s q h))
    (hR.programOp hT hM hD hI hP hS image)

theorem OpFrame.sessionOp {image : Option Image} (hR : OpFrame (.session image) R) :
    Keeps R (Sys2Proof.Machine.sessionOp image) := by
  intro s q h
  rcases andThen_ok h with ⟨u, hu, hq⟩ | ⟨u, hu, rfl⟩
  · obtain ⟨hclosed, hp⟩ := require_ok hu
    cases hp
    cases image with
    | none =>
      rw [halt_ok hq]
      exact hR.unreadable rfl s (of_decide_eq_true hclosed)
    | some image =>
      have hF := hR.toFrame
      have hmain := hF.sessionMain (image := image) (hR.tstate rfl) (hR.fifo rfl) hR.delay
        (hR.clock rfl) (hR.pulse rfl) (hR.restarted rfl) (hR.activated rfl) (hR.start rfl)
        (hR.advance rfl)
      exact hF.seq (hR.opens rfl) (hF.seq hmain (hR.closes rfl)) s q
        ((sessionBody_eq image s).symm.trans hq)
  · cases (require_ok hu).2

/-- Everything an instruction that answers a next state can come to, for a relation that the
primitives it uses keep. -/
theorem exec_keeps {i : Instr} (hR : OpFrame i R) {s t : State} (h : exec i s = .next t) :
    Resting s ∧ ((∃ u, R (issued s) true u ∧ t = completed .ok u) ∨ R (issued s) false t ∨
      ∃ b, t = { s with busy := false, reply := some (.bytes b) }) := by
  have fn : ∀ value, function value s = .next t → Resting s ∧
      ((∃ u, R (issued s) true u ∧ t = completed .ok u) ∨ R (issued s) false t ∨
        ∃ b, t = { s with busy := false, reply := some (.bytes b) }) := fun value hv =>
    ⟨(function_next hv).1, .inr (.inr ⟨_, (function_next hv).2⟩)⟩
  have op : ∀ body, Keeps R body → operation body s = .next t → Resting s ∧
      ((∃ u, R (issued s) true u ∧ t = completed .ok u) ∨ R (issued s) false t ∨
        ∃ b, t = { s with busy := false, reply := some (.bytes b) }) := fun body hb ho =>
    ⟨(operation_keeps hb ho).1, (operation_keeps hb ho).2.imp id .inl⟩
  have hF := hR.toFrame
  cases i with
  | encode a d => exact fn (fun s => encodePacket s.par a d) h
  | bitFrame1 => exact fn (fun s => bitFrame s.par true) h
  | bitFrame0 => exact fn (fun s => bitFrame s.par false) h
  | terminator => exact fn (fun _ => termFrame) h
  | addressHeader a => exact fn (fun _ => header a) h
  | reservedOp code => cases h
  | writeReg a d => exact op _ (hF.writeRegister (fun _ => a) fun _ => d) h
  | writeEnable | wakeUp | eraseAll =>
    exact op _ (hF.seq hF.flashGate (hF.singleOpcode (hR.tstate rfl) _ _)) h
  | unlock => exact op _ (hF.seq hF.flashGate (hF.unlockBody (hR.tstate rfl))) h
  | writeFifoReg a d =>
    exact op _ (hF.seq (hF.seq hF.flashGate (hF.check _ _)) (hR.fifo rfl a d)) h
  | sectorErase a =>
    exact op _ (hF.seq hF.flashGate (hF.sectorEraseBody (hR.tstate rfl) hR.delay a)) h
  | programPage a d =>
    exact op _ (hF.seq hF.flashGate
      (hF.programPageBody (hR.tstate rfl) (hR.fifo rfl) hR.delay a d)) h
  | softReset | mcuSoftReset =>
    exact op _ (hF.seq hF.requireOpen (hF.softResetBody (hR.restarted rfl))) h
  | settle ms => exact op _ (hF.settleBody (hR.tstate rfl) hR.delay ms) h
  | activate =>
    exact op _ (hF.activateBody (hR.tstate rfl) (hR.clock rfl) (hR.pulse rfl) (hR.restarted rfl)
      (hR.activated rfl)) h
  | program image =>
    exact op _ (hF.programOp (hR.tstate rfl) (hR.fifo rfl) hR.delay (hR.start rfl)
      (hR.advance rfl) (hR.restarted rfl) image) h
  | session image => exact op _ hR.sessionOp h
  | openPort => exact op _ (hR.opens rfl) h
  | closePort => exact op _ (hR.closes rfl) h
  | flashWriteEnable | flashWakeUp | flashEraseAll =>
    exact op _ (hF.seq hF.activeGate (hF.sendLastByte (hR.tstate rfl) _ _)) h
  | flashUnlock | flashSectorErase | flashPageProgram =>
    exact op _ (hF.seq hF.activeGate (hF.sendByte _)) h
  | flashUnlockString => exact op _ (hF.seq hF.activeGate (hF.unlockString (hR.tstate rfl))) h
  | flashSectorEraseString a =>
    exact op _ (hF.seq hF.activeGate (hF.sectorEraseSteps (hR.tstate rfl) a)) h
  | flashPageProgramPrefix a payload =>
    exact op _ (hF.seq (hF.seq (hF.seq hF.activeGate (hF.requireTState _)) (hF.check _ _))
      (Frame.pageTransfer (hR.fifo rfl) a payload)) h
  | csLow => exact op _ (hF.seq hF.activeGate (hF.csLowStep (hR.tstate rfl))) h
  | csHigh n => exact op _ (hF.seq hF.activeGate (hF.csHighStep (hR.tstate rfl) n)) h

end Keeps

/-! ## What each instruction leaves alone (R13 to R20, R105) -/

/-- The variables that `i` does not write are in `t` as in `s`. -/
structure Unwritten (i : Instr) (s t : State) : Prop where
  lines : activates i = false →
    t.lineA = s.lineA ∧ t.lineB = s.lineB ∧ t.env.ticks = s.env.ticks
  cursor : programs i = false → t.cursor = s.cursor ∧ t.remaining = s.remaining
  opens : opensPort i = false → t.env.opens = s.env.opens
  transport : opensPort i = false → closesPort i = false → t.transport = s.transport
  fifoMode : usesFifo i = false → t.fifoMode = s.fifoMode
  ready : activates i = false → restarts i = false → t.ready = s.ready
  gate : activates i = false → t.ready = true → s.ready = true
  tstate : movesController i = false → t.tstate = s.tstate

namespace Unwritten

variable {i : Instr} {s t u : State}

theorem refl (i : Instr) (s : State) : Unwritten i s s := by
  constructor <;> simp

theorem trans (h : Unwritten i s t) (k : Unwritten i t u) : Unwritten i s u where
  lines hi := by
    obtain ⟨ha, hb, hc⟩ := h.lines hi
    obtain ⟨ka, kb, kc⟩ := k.lines hi
    exact ⟨ka.trans ha, kb.trans hb, kc.trans hc⟩
  cursor hi := ⟨(k.cursor hi).1.trans (h.cursor hi).1, (k.cursor hi).2.trans (h.cursor hi).2⟩
  opens hi := (k.opens hi).trans (h.opens hi)
  transport ho hc := (k.transport ho hc).trans (h.transport ho hc)
  fifoMode hi := (k.fifoMode hi).trans (h.fifoMode hi)
  ready ha hr := (k.ready ha hr).trans (h.ready ha hr)
  gate hi hu := h.gate hi (k.gate hi hu)
  tstate hi := (k.tstate hi).trans (h.tstate hi)

theorem transportWrite (i : Instr) (buf : List Byte) :
    Keeps (fun s _ t => Unwritten i s t) (transportWrite buf) := by
  intro s q h
  obtain ⟨-, -, e, rfl, rfl | rfl | rfl⟩ := transportWrite_ok h <;>
    constructor <;> simp [nextWrite_frame]

end Unwritten

/-- Each primitive writes only what the instructions that use it are listed for. -/
theorem unwritten_opFrame (i : Instr) : OpFrame i fun s _ t => Unwritten i s t := by
  have hF : Frame fun s _ t => Unwritten i s t :=
    ⟨Unwritten.refl i, fun _ _ _ _ => Unwritten.trans, Unwritten.transportWrite i⟩
  have hdelay : KeepsDelay fun s _ t => Unwritten i s t := by
    intro ms s q h
    rw [(delay_ok h).2]
    constructor <;> simp
  exact {
    toFrame := hF
    delay := hdelay
    tstate := fun hi t s => by constructor <;> simp [hi]
    fifo := fun hi => hF.writeFifoBody fun m s => by constructor <;> simp [hi]
    pulse := fun hi => hF.resetPulse (fun a b s q h => by
      rw [(setLines_ok h).2.2]
      constructor <;> simp [hi]) hdelay
    clock := fun hi s ts c n r _ _ => by constructor <;> simp [hi]
    activated := fun hi s => by constructor <;> simp [hi]
    restarted := fun hi s => by constructor <;> simp [hi]
    start := fun hi n s _ => by constructor <;> simp [hi]
    advance := fun hi s q h => by
      rw [go_ok h]
      constructor <;> simp [hi]
    opens := fun hi s q h => by
      obtain ⟨-, -, e, rfl, rfl | rfl⟩ := openTransport_ok h <;>
        constructor <;> simp [hi, nextOpen_frame]
    closes := fun hi s q h => by
      rw [(closeTransport_ok h).2.2]
      constructor <;> simp [hi]
    unreadable := fun _ s _ => by constructor <;> simp }

theorem exec_unwritten {i : Instr} {s t : State} (h : exec i s = .next t) : Unwritten i s t := by
  have hissue : Unwritten i s (issued s) := by constructor <;> simp
  obtain ⟨-, ⟨u, hu, rfl⟩ | ht | ⟨b, rfl⟩⟩ := exec_keeps (unwritten_opFrame i) h
  · refine (hissue.trans hu).trans ?_
    constructor <;> simp
  · exact hissue.trans ht
  · constructor <;> simp

section Lists

variable {i : Instr}

theorem eq_of_activates (h : activates i = true) : i = .activate ∨ ∃ image, i = .session image := by
  cases i with
  | activate => exact .inl rfl
  | session image => exact .inr ⟨image, rfl⟩
  | _ => cases h

theorem eq_of_programs (h : programs i = true) :
    (∃ image, i = .program image) ∨ ∃ image, i = .session image := by
  cases i with
  | program image => exact .inl ⟨image, rfl⟩
  | session image => exact .inr ⟨image, rfl⟩
  | _ => cases h

theorem eq_of_opensPort (h : opensPort i = true) : i = .openPort ∨ ∃ image, i = .session image := by
  cases i with
  | openPort => exact .inl rfl
  | session image => exact .inr ⟨image, rfl⟩
  | _ => cases h

theorem eq_of_closesPort (h : closesPort i = true) :
    i = .closePort ∨ ∃ image, i = .session image := by
  cases i with
  | closePort => exact .inl rfl
  | session image => exact .inr ⟨image, rfl⟩
  | _ => cases h

theorem eq_of_restarts (h : restarts i = true) :
    (i = .softReset ∨ i = .mcuSoftReset ∨ i = .activate) ∨ (∃ image, i = .program image) ∨
      ∃ image, i = .session image := by
  cases i with
  | softReset | mcuSoftReset | activate => exact .inl (by simp)
  | program image => exact .inr (.inl ⟨image, rfl⟩)
  | session image => exact .inr (.inr ⟨image, rfl⟩)
  | _ => cases h

theorem eq_of_usesFifo (h : usesFifo i = true) :
    (∃ a d, i = .writeFifoReg a d) ∨ (∃ a d, i = .programPage a d) ∨
      (∃ a d, i = .flashPageProgramPrefix a d) ∨ (∃ image, i = .program image) ∨
      ∃ image, i = .session image := by
  cases i with
  | writeFifoReg a d => exact .inl ⟨a, d, rfl⟩
  | programPage a d => exact .inr (.inl ⟨a, d, rfl⟩)
  | flashPageProgramPrefix a d => exact .inr (.inr (.inl ⟨a, d, rfl⟩))
  | program image => exact .inr (.inr (.inr (.inl ⟨image, rfl⟩)))
  | session image => exact .inr (.inr (.inr (.inr ⟨image, rfl⟩)))
  | _ => cases h

end Lists

/-- Settles O56: the instructions that a clause excepts are those that use the primitive. -/
theorem onlyTheseOperationsWriteEachVariable :
    Obligations.OnlyTheseOperationsWriteEachVariable := by
  intro i s t h hsession
  have hu := exec_unwritten h
  have noSession : ¬ ∃ image, i = .session image := fun ⟨image, hi⟩ => hsession image hi
  have hactivates : i ≠ .activate → activates i = false := fun hi =>
    eq_false_of_ne_true fun ht => (eq_of_activates ht).elim hi noSession
  have hprograms : (∀ image, i ≠ .program image) → programs i = false := fun hi =>
    eq_false_of_ne_true fun ht => (eq_of_programs ht).elim (fun ⟨_, he⟩ => hi _ he) noSession
  have hopens : i ≠ .openPort → opensPort i = false := fun hi =>
    eq_false_of_ne_true fun ht => (eq_of_opensPort ht).elim hi noSession
  have hcloses : i ≠ .closePort → closesPort i = false := fun hi =>
    eq_false_of_ne_true fun ht => (eq_of_closesPort ht).elim hi noSession
  refine ⟨fun hi => hu.lines (hactivates hi), fun hi => hu.cursor (hprograms hi),
    fun hi => ⟨hu.opens (hopens hi), fun hc => hu.transport (hopens hi) (hcloses hc)⟩,
    fun hf hp hx hi => hu.fifoMode (eq_false_of_ne_true fun ht => ?_),
    fun ha hs hm hi => hu.ready (hactivates ha) (eq_false_of_ne_true fun ht => ?_),
    fun ha => hu.gate (hactivates ha)⟩
  · obtain ⟨a, d, rfl⟩ | ⟨a, d, rfl⟩ | ⟨a, d, rfl⟩ | ⟨image, rfl⟩ | he := eq_of_usesFifo ht
    · exact hf a d rfl
    · exact hp a d rfl
    · exact hx a d rfl
    · exact hi image rfl
    · exact noSession he
  · obtain (rfl | rfl | rfl) | ⟨image, rfl⟩ | he := eq_of_restarts ht
    · exact hs rfl
    · exact hm rfl
    · exact ha rfl
    · exact hi image rfl
    · exact noSession he

/-- Settles O57: none of the listed instructions moves the controller. -/
theorem controllerStateFrame : Obligations.ControllerStateFrame := by
  intro i s t h hi
  refine (exec_unwritten h).tstate ?_
  obtain ⟨a, d, rfl⟩ | ⟨a, d, rfl⟩ | ⟨a, d, rfl⟩ | rfl | rfl | rfl | rfl | rfl | rfl | rfl |
    ⟨a, rfl⟩ | rfl | rfl | rfl | ⟨a, d, rfl⟩ := hi
  all_goals rfl

end Sys2Proof.Machine


namespace Sys2Proof.Machine

/-! ## The frame of every operation (R19, R95, R98) -/

/-- From `s` to `t` parameters, configuration and host stay, the trace has only grown, and the clock
is on by what was waited. -/
structure Grows (s t : State) : Prop where
  par : t.par = s.par
  cfg : t.cfg = s.cfg
  host : t.host = s.host
  trace : ∃ events, t.trace = s.trace ++ events ∧
    s.env.clock + waitTotal events ≤ t.env.clock

namespace Grows

variable {s t u : State}

theorem trans (h : Grows s t) (k : Grows t u) : Grows s u := by
  obtain ⟨hp, hc, hh, ev, hev, hclock⟩ := h
  obtain ⟨kp, kc, kh, ev', kev, kclock⟩ := k
  refine ⟨kp.trans hp, kc.trans hc, kh.trans hh, ev ++ ev', ?_, ?_⟩
  · rw [kev, hev, List.append_assoc]
  · rw [waitTotal_append]
    omega

/-- No event, and the clock not back. -/
theorem quiet (hp : t.par = s.par) (hc : t.cfg = s.cfg) (hh : t.host = s.host)
    (ht : t.trace = s.trace) (hclock : s.env.clock ≤ t.env.clock) : Grows s t :=
  ⟨hp, hc, hh, [], by rw [ht, List.append_nil], hclock⟩

/-- One event, and the clock on by its wait. -/
theorem event {e : Event} (hp : t.par = s.par) (hc : t.cfg = s.cfg) (hh : t.host = s.host)
    (ht : t.trace = s.trace ++ [e]) (hclock : s.env.clock + waitOf e ≤ t.env.clock) : Grows s t :=
  ⟨hp, hc, hh, [e], ht, by simpa [waitTotal] using hclock⟩

theorem same (hp : t.par = s.par) (hc : t.cfg = s.cfg) (hh : t.host = s.host)
    (ht : t.trace = s.trace) (he : t.env = s.env) : Grows s t :=
  quiet hp hc hh ht (he ▸ le_rfl)

theorem transportWrite (buf : List Byte) : Keeps (fun s _ t => Grows s t) (transportWrite buf) := by
  intro s q h
  have hclock := (nextWrite_frame s.env).1.ge
  obtain ⟨-, -, e, rfl, rfl | rfl | rfl⟩ := transportWrite_ok h
  · exact event rfl rfl rfl rfl hclock
  · exact event rfl rfl rfl rfl hclock
  · exact quiet rfl rfl rfl rfl hclock

theorem frame : Frame fun s _ t => Grows s t :=
  ⟨fun _ => same rfl rfl rfl rfl rfl, fun _ _ _ _ => trans, transportWrite⟩

end Grows

theorem delay_grows : KeepsDelay fun s _ t => Grows s t := by
  intro ms s q h
  rw [(delay_ok h).2]
  exact .event rfl rfl rfl rfl le_rfl

theorem grows_opFrame (i : Instr) : OpFrame i fun s _ t => Grows s t where
  toFrame := Grows.frame
  delay := delay_grows
  tstate _ _ _ := .same rfl rfl rfl rfl rfl
  fifo _ := Grows.frame.writeFifoBody fun _ _ => .same rfl rfl rfl rfl rfl
  pulse _ := Grows.frame.resetPulse (fun a b s q h => by
    rw [(setLines_ok h).2.2]
    exact .event rfl rfl rfl rfl le_rfl) delay_grows
  clock _ _ _ _ _ _ hclock _ := .quiet rfl rfl rfl rfl hclock
  activated _ _ := .same rfl rfl rfl rfl rfl
  restarted _ _ := .same rfl rfl rfl rfl rfl
  start _ _ _ _ := .same rfl rfl rfl rfl rfl
  advance _ s q h := by
    rw [go_ok h]
    exact .same rfl rfl rfl rfl rfl
  opens _ s q h := by
    have hclock := (nextOpen_frame s.env).1.ge
    obtain ⟨-, -, e, rfl, rfl | rfl⟩ := openTransport_ok h
    · exact .event rfl rfl rfl rfl hclock
    · exact .quiet rfl rfl rfl rfl hclock
  closes _ s q h := by
    rw [(closeTransport_ok h).2.2]
    exact .event rfl rfl rfl rfl le_rfl
  unreadable _ _ _ := .same rfl rfl rfl rfl rfl

theorem exec_grows {i : Instr} {s t : State} (h : exec i s = .next t) : Grows s t := by
  have hissue : Grows s (issued s) := .same rfl rfl rfl rfl rfl
  obtain ⟨-, ⟨u, hu, rfl⟩ | ht | ⟨b, rfl⟩⟩ := exec_keeps (grows_opFrame i) h
  · exact (hissue.trans hu).trans (.same rfl rfl rfl rfl rfl)
  · exact hissue.trans ht
  · exact .same rfl rfl rfl rfl rfl

/-- Settles O55. -/
theorem everyOperationKeepsTheFrame : Obligations.EveryOperationKeepsTheFrame := by
  intro i s t h
  obtain ⟨hp, hc, hh, htrace⟩ := exec_grows h
  exact ⟨hp, hc, hh, htrace⟩

/-! ## How an operation ends (R152, R154, R182, R189) -/

/-- An operation has been issued and has neither completed nor failed. -/
structure Underway (s : State) : Prop where
  fault : s.fault = none
  busy : s.busy = true
  reply : s.reply = none

/-- The operation has ended with the failure `f`, and the host is told. -/
structure FailedWith (f : Failure) (s : State) : Prop where
  fault : s.fault = some f
  busy : s.busy = false
  reply : s.reply = some (.failed f)

/-- No failed write among the events. -/
def NoFailedWrite (events : List Event) : Prop := ∀ buf, .writeFailed buf ∉ events

theorem NoFailedWrite.append {a b : List Event} (ha : NoFailedWrite a) (hb : NoFailedWrite b) :
    NoFailedWrite (a ++ b) := fun buf h =>
  (List.mem_append.mp h).elim (ha buf) (hb buf)

/-- Where the statements of an issued operation stand, the second argument saying whether they go
on. -/
inductive Reached (s : State) : Bool → State → Prop
  /-- Under way, or hung there. -/
  | underway {r : Bool} {t : State} (events : List Event) (ht : Underway t)
      (htrace : t.trace = s.trace ++ events) (hclean : NoFailedWrite events)
      (hclosed : .closed ∈ events → t.transport = .finished) : Reached s r t
  /-- Ended by a write that failed. -/
  | writeFailed {t : State} (events : List Event) (buf : List Byte)
      (ht : FailedWith .transportWrite t) (hopen : t.transport = .opened)
      (htrace : t.trace = s.trace ++ events ++ [.writeFailed buf])
      (hclean : NoFailedWrite events) (hclosed : .closed ∉ events) : Reached s false t
  /-- Ended before the transport was open. -/
  | early {t : State} (f : Failure) (events : List Event) (ht : FailedWith f t)
      (hf : f ≠ .transportWrite) (hclosed : t.transport = .closed)
      (htrace : t.trace = s.trace ++ events) (hclean : NoFailedWrite events) : Reached s false t

/-- What the statements of an issued operation come to; a transport that was closed stays so. -/
def Runs (s : State) (r : Bool) (t : State) : Prop :=
  Underway s → (s.transport = .finished → t.transport = .finished) ∧ Reached s r t

namespace Runs

variable {s t u : State} {r : Bool}

theorem trans (h : Runs s true t) (k : Runs t r u) : Runs s r u := by
  intro hs
  obtain ⟨hfin, hreach⟩ := h hs
  obtain ⟨ev, ht, htrace, hclean, hclosed⟩ := hreach
  obtain ⟨kfin, kreach⟩ := k ht
  refine ⟨fun hf => kfin (hfin hf), ?_⟩
  cases kreach with
  | underway ev' hu kt kclean kclosed =>
    refine .underway (ev ++ ev') hu (by rw [kt, htrace, List.append_assoc]) (hclean.append kclean)
      fun hmem => ?_
    exact (List.mem_append.mp hmem).elim (fun hm => kfin (hclosed hm)) kclosed
  | writeFailed ev' buf hu hopen kt kclean kclosed =>
    refine .writeFailed (ev ++ ev') buf hu hopen (by rw [kt, htrace, ← List.append_assoc s.trace])
      (hclean.append kclean) fun hmem => ?_
    refine (List.mem_append.mp hmem).elim (fun hm => ?_) kclosed
    rw [kfin (hclosed hm)] at hopen
    cases hopen
  | early f ev' hu hf kc kt kclean =>
    exact .early f (ev ++ ev') hu hf kc (by rw [kt, htrace, List.append_assoc])
      (hclean.append kclean)

/-- A statement that leaves the trace, the transport and the outcome. -/
theorem quiet (hf : t.fault = s.fault) (hb : t.busy = s.busy) (hr : t.reply = s.reply)
    (hp : t.transport = s.transport) (ht : t.trace = s.trace) : Runs s r t := fun hs =>
  ⟨fun h => hp.trans h, .underway [] ⟨hf.trans hs.fault, hb.trans hs.busy, hr.trans hs.reply⟩
    (by rw [ht, List.append_nil]) nofun nofun⟩

/-- A statement that appends one event, no failed write, and a close only when it closes. -/
theorem event {e : Event} (hf : t.fault = s.fault) (hb : t.busy = s.busy) (hr : t.reply = s.reply)
    (hp : s.transport = .finished → t.transport = .finished) (ht : t.trace = s.trace ++ [e])
    (he : ∀ buf, e ≠ .writeFailed buf) (hc : e = .closed → t.transport = .finished) :
    Runs s r t := fun hs =>
  ⟨hp, .underway [e] ⟨hf.trans hs.fault, hb.trans hs.busy, hr.trans hs.reply⟩ ht
    (fun buf hmem => he buf (List.mem_singleton.mp hmem).symm)
    fun hmem => hc (List.mem_singleton.mp hmem).symm⟩

theorem transportWrite (buf : List Byte) : Keeps Runs (transportWrite buf) := by
  intro s q h
  obtain ⟨hopen, -, e, rfl, rfl | rfl | rfl⟩ := transportWrite_ok h
  · exact event rfl rfl rfl id rfl nofun nofun
  · exact fun hs => ⟨id, .writeFailed [] buf ⟨rfl, rfl, rfl⟩ hopen (by simp) nofun nofun⟩
  · exact quiet rfl rfl rfl rfl rfl

theorem frame : Frame Runs :=
  ⟨fun _ => quiet rfl rfl rfl rfl rfl, fun _ _ _ _ => trans, transportWrite⟩

end Runs

theorem delay_runs : KeepsDelay Runs := by
  intro ms s q h
  rw [(delay_ok h).2]
  exact .event rfl rfl rfl id rfl nofun nofun

theorem runs_opFrame (i : Instr) : OpFrame i Runs where
  toFrame := Runs.frame
  delay := delay_runs
  tstate _ _ _ := .quiet rfl rfl rfl rfl rfl
  fifo _ := Runs.frame.writeFifoBody fun _ _ => .quiet rfl rfl rfl rfl rfl
  pulse _ := Runs.frame.resetPulse (fun a b s q h => by
    rw [(setLines_ok h).2.2]
    exact .event rfl rfl rfl id rfl nofun nofun) delay_runs
  clock _ _ _ _ _ _ _ _ := .quiet rfl rfl rfl rfl rfl
  activated _ _ := .quiet rfl rfl rfl rfl rfl
  restarted _ _ := .quiet rfl rfl rfl rfl rfl
  start _ _ _ _ := .quiet rfl rfl rfl rfl rfl
  advance _ s q h := by
    rw [go_ok h]
    exact .quiet rfl rfl rfl rfl rfl
  opens _ s q h := by
    obtain ⟨hclosed, -, e, rfl, rfl | rfl⟩ := openTransport_ok h
    · exact .event rfl rfl rfl (fun hf => by rw [hclosed] at hf; cases hf) rfl nofun nofun
    · exact fun hs => ⟨id, .early .transportOpen [] ⟨rfl, rfl, rfl⟩ nofun hclosed (by simp) nofun⟩
  closes _ s q h := by
    rw [(closeTransport_ok h).2.2]
    exact .event rfl rfl rfl (fun _ => rfl) rfl nofun fun _ => rfl
  unreadable _ s hclosed := fun _ =>
    ⟨id, .early .imageRead [] ⟨rfl, rfl, rfl⟩ nofun hclosed (by simp) nofun⟩

theorem underway_issued {s : State} (h : Resting s) : Underway (issued s) := ⟨h.1, rfl, rfl⟩

/-- How an instruction that answers a next state has ended: completed with a reply after the events
so far, or hung or failed where its statements stopped. -/
theorem exec_ends {i : Instr} {s t : State} (h : exec i s = .next t) :
    Resting s ∧ ((∃ u r, Underway u ∧ Reached (issued s) true u ∧ t = completed r u ∧
      (r = .ok ∨ ∃ b, r = .bytes b)) ∨ Reached (issued s) false t) := by
  obtain ⟨hR, ⟨u, hu, rfl⟩ | ht | ⟨b, rfl⟩⟩ := exec_keeps (runs_opFrame i) h
  · have hreach := (hu (underway_issued hR)).2
    have hunder : Underway u := by
      cases hreach
      assumption
    exact ⟨hR, .inl ⟨u, .ok, hunder, hreach, rfl, .inl rfl⟩⟩
  · exact ⟨hR, .inr (ht (underway_issued hR)).2⟩
  · have hstay : Reached (issued s) true (issued s) :=
      (Runs.frame.refl (issued s) (underway_issued hR)).2
    exact ⟨hR, .inl ⟨issued s, .bytes b, underway_issued hR, hstay, rfl, .inr ⟨b, rfl⟩⟩⟩

/-- Settles O40: the only end that latches a write failure is the one at the failed write. -/
theorem writeFailureIsPrecise : Obligations.WriteFailureIsPrecise := by
  intro i s t h hfault
  obtain ⟨-, ⟨u, r, hu, -, rfl, -⟩ | hreach⟩ := exec_ends h
  · rw [completed_fault, hu.fault] at hfault
    cases hfault
  · cases hreach with
    | underway ev ht =>
      rw [ht.fault] at hfault
      cases hfault
    | writeFailed ev buf ht hopen htrace hclean hclosed =>
      exact ⟨ht.busy, ht.reply, hopen, ev, buf, htrace, hclean, hclosed⟩
    | early f ev ht hf =>
      rw [ht.fault] at hfault
      exact absurd (Option.some.inj hfault) hf

/-- Settles O41. -/
theorem everyOperationEndsOneWay : Obligations.EveryOperationEndsOneWay := by
  intro i s t h
  obtain ⟨⟨hfault, hbusy⟩, hends⟩ := exec_ends h
  refine ⟨hfault, hbusy, ?_⟩
  obtain ⟨u, r, hu, -, rfl, hr⟩ | hreach := hends
  · refine .inl ⟨hu.fault, rfl, ?_⟩
    obtain rfl | ⟨b, rfl⟩ := hr
    · exact .inl rfl
    · exact .inr ⟨b, rfl⟩
  · cases hreach with
    | underway ev ht => exact .inr (.inr ⟨ht.fault, ht.busy, ht.reply⟩)
    | writeFailed ev buf ht => exact .inr (.inl ⟨_, ht.fault, ht.busy, ht.reply⟩)
    | early f ev ht => exact .inr (.inl ⟨f, ht.fault, ht.busy, ht.reply⟩)

/-- Statements that stop have failed or hang. -/
theorem not_reached_of_completed {s t : State} (h : Reached s false t) (hfault : t.fault = none)
    (hbusy : t.busy = false) : False := by
  cases h with
  | underway ev ht => exact absurd (ht.busy.symm.trans hbusy) nofun
  | writeFailed ev buf ht => exact absurd (ht.fault.symm.trans hfault) nofun
  | early f ev ht => exact absurd (ht.fault.symm.trans hfault) nofun

/-- An operation that is neither failed nor hung has run to its end. -/
theorem operation_completed {body : State → Flow} (hbody : Keeps Runs body) {s t : State}
    (h : operation body s = .next t) (hfault : t.fault = none) (hbusy : t.busy = false) :
    Resting s ∧ ∃ u, body (issued s) = Flow.go u ∧ t = completed .ok u := by
  obtain ⟨hR, hgo | hhalt⟩ := operation_next h
  · exact ⟨hR, hgo⟩
  · exact (not_reached_of_completed (hbody _ _ hhalt (underway_issued hR)).2 hfault hbusy).elim

end Sys2Proof.Machine


namespace Sys2Proof.Machine

/-! ## An activation that runs to its end, whatever the environment does (R130, R131) -/

theorem andThen_eq_go {f : Flow} {g : State → Flow} {t : State} (h : f.andThen g = Flow.go t) :
    ∃ u, f = Flow.go u ∧ g u = Flow.go t := by
  obtain ⟨u, hu, ht⟩ | ⟨u, -, ht⟩ := andThen_ok h
  · exact ⟨u, hu, ht⟩
  · cases ht

theorem require_eq_go {c : Bool} {r : Refusal} {s t : State} (h : require c r s = Flow.go t) :
    c = true ∧ t = s := by
  obtain ⟨hc, ht⟩ := require_ok h
  cases ht
  exact ⟨hc, rfl⟩

/-- From `s` to `t` the trace has grown by `events` of the parameters, the lines are as before, and
the clock has not gone back. -/
structure Sent (events : Params → List Event) (s t : State) : Prop where
  par : t.par = s.par
  cfg : t.cfg = s.cfg
  lineA : t.lineA = s.lineA
  lineB : t.lineB = s.lineB
  trace : t.trace = s.trace ++ events s.par
  clock : s.env.clock ≤ t.env.clock

section Sent

variable {ev ev' : Params → List Event} {s t u : State}

theorem Sent.trans (h : Sent ev s t) (k : Sent ev' t u) : Sent (fun p => ev p ++ ev' p) s u where
  par := k.par.trans h.par
  cfg := k.cfg.trans h.cfg
  lineA := k.lineA.trans h.lineA
  lineB := k.lineB.trans h.lineB
  trace := by rw [k.trace, h.trace, h.par, List.append_assoc]
  clock := h.clock.trans k.clock

theorem writeRegister_sent {a : Params → RegAddr} {d : Params → List Byte}
    (h : writeRegister (a s.par) (d s.par) s = Flow.go t) :
    Sent (fun p => [burst p (a p) (d p)]) s t := by
  obtain ⟨-, -, e, rfl, hq | hq | hq⟩ := transportWrite_ok h
  · cases hq
    exact ⟨rfl, rfl, rfl, rfl, rfl, (nextWrite_frame _).1.ge⟩
  · cases hq
  · cases hq

theorem moveTo_sent {c : TState} (h : Sent ev s t) (hu : moveTo c t = Flow.go u) :
    Sent ev s u ∧ u.tstate = c := by
  cases hu
  exact ⟨⟨h.par, h.cfg, h.lineA, h.lineB, h.trace, h.clock⟩, rfl⟩

theorem bracket_eq_go {c : TState}
    (h : (requireTState c s).andThen requireNormalMode = Flow.go t) : t = s := by
  obtain ⟨u, hu, ht⟩ := andThen_eq_go h
  rw [(require_eq_go ht).2, (require_eq_go hu).2]

theorem csLowStep_sent (h : csLowStep s = Flow.go t) :
    Sent (fun p => [wCs p p.csLowVal]) s t := by
  obtain ⟨u, hu, hrest⟩ := andThen_eq_go h
  obtain rfl := bracket_eq_go hu
  obtain ⟨v, hv, ht⟩ := andThen_eq_go hrest
  have hsent := writeRegister_sent (a := Params.regFlashCs) (d := fun p => [p.csLowVal]) hv
  exact (moveTo_sent hsent ht).1

theorem sendLastByte_sent {b : Byte} {next : Closing} (h : sendLastByte b next s = Flow.go t) :
    Sent (fun p => [wData p [b, 0x01]]) s t ∧ t.tstate = closingState next := by
  obtain ⟨u, hu, hrest⟩ := andThen_eq_go h
  obtain rfl := bracket_eq_go hu
  obtain ⟨v, hv, ht⟩ := andThen_eq_go hrest
  have hsent := writeRegister_sent (a := Params.regFlashData) (d := fun _ => [b, csHighVal]) hv
  exact moveTo_sent hsent ht

theorem singleOpcode_sent {op : Byte} {next : Closing} (h : singleOpcode op next s = Flow.go t) :
    Sent (fun p => opcodeTrace p op) s t ∧ t.tstate = closingState next := by
  obtain ⟨u, hu, h⟩ := andThen_eq_go h
  obtain ⟨hsent, hstate⟩ := sendLastByte_sent h
  exact ⟨(csLowStep_sent hu).trans hsent, hstate⟩

theorem softResetBody_sent (h : softResetBody s = Flow.go t) : Sent (fun p => [wMcu p]) s t := by
  obtain ⟨u, hu, hrest⟩ := andThen_eq_go h
  obtain rfl := (require_eq_go hu).2
  obtain ⟨v, hv, ht⟩ := andThen_eq_go hrest
  obtain ⟨hp, hc, ha, hb, htr, hcl⟩ :=
    writeRegister_sent (a := Params.regMcuCtrl) (d := fun _ => [mcuResetVal]) hv
  cases ht
  exact ⟨hp, hc, ha, hb, htr, hcl⟩

theorem cpuStop_sent (h : cpuStop s = Flow.go t) : Sent (fun p => [wStop p]) s t :=
  writeRegister_sent (a := Params.regCpuStop) (d := fun p => [p.cpuStopVal]) h

/-- `n` CPU-stop writes. -/
def stops (n : Nat) (p : Params) : List Event := List.replicate n (wStop p)

theorem cpuStop_stops {n : Nat} (h : Sent (fun p => [wStop p]) s t) (k : Sent (stops n) t u) :
    Sent (stops (n + 1)) s u := h.trans k

theorem cpuStops_sent {n : Nat} (h : cpuStops n s = Flow.go t) : Sent (stops n) s t := by
  induction n generalizing s with
  | zero =>
    cases h
    exact ⟨rfl, rfl, rfl, rfl, (List.append_nil _).symm, le_rfl⟩
  | succ n ih =>
    obtain ⟨u, hu, ht⟩ := andThen_eq_go h
    exact cpuStop_stops (cpuStop_sent hu) (ih ht)

/-- What a flood with this deadline has done when it is over: some number of CPU-stop writes, none
when the deadline had been reached before it, and the clock at the deadline or past it (R131). -/
def Flooded (deadline : Nat) (s t : State) : Prop :=
  ∃ n, Sent (stops n) s t ∧ (deadline ≤ s.env.clock → n = 0) ∧ deadline ≤ t.env.clock

theorem floodFree_flooded {deadline : Nat} (h : floodFree deadline s = Flow.go t) :
    Flooded deadline s t := by
  obtain ⟨u, hu, ht⟩ := andThen_eq_go h
  obtain ⟨hp, hc, ha, hb, htr, hcl⟩ := cpuStops_sent hu
  cases ht
  refine ⟨_, ⟨hp, hc, ha, hb, htr, hcl.trans ?_⟩, fun hd => if_neg (Nat.not_lt.mpr hd), ?_⟩
  · exact (le_max_left _ _).trans (Nat.le_add_right _ _)
  · exact (le_max_right _ _).trans (Nat.le_add_right _ _)

theorem floodLoop_flooded {deadline : Nat} (ts : List Tick) :
    ∀ {s t : State}, floodLoop deadline ts s = Flow.go t → Flooded deadline s t := by
  induction ts with
  | nil =>
    intro s t h
    obtain ⟨n, ⟨hp, hc, ha, hb, htr, hcl⟩, hn, hd⟩ := floodFree_flooded h
    exact ⟨n, ⟨hp, hc, ha, hb, htr, hcl⟩, hn, hd⟩
  | cons tick ts ih =>
    intro s t h
    have hle : s.env.clock ≤ s.env.clock + tickMs tick := Nat.le_add_right _ _
    simp only [floodLoop] at h
    split at h
    next hbefore =>
      split at h
      · cases h
      · obtain ⟨u, hu, ht⟩ := andThen_eq_go h
        obtain ⟨n, hsent, -, hd⟩ := ih ht
        obtain ⟨hp, hc, ha, hb, htr, hcl⟩ := cpuStop_stops (cpuStop_sent hu) hsent
        exact ⟨n + 1, ⟨hp, hc, ha, hb, htr, hle.trans hcl⟩, fun hd => by omega, hd⟩
    next hreached =>
      cases h
      exact ⟨0, ⟨rfl, rfl, rfl, rfl, (List.append_nil _).symm, hle⟩, fun _ => rfl,
        Nat.not_lt.mp hreached⟩

theorem now_clock (e : Env) : e.clock ≤ e.now.clock := by
  unfold Env.now
  split <;> exact Nat.le_add_right _ _

theorem flood_sent {dur : Nat} (h : flood dur s = Flow.go t) :
    ∃ n, Sent (stops n) s t ∧ (dur = 0 → n = 0) ∧ s.env.clock + dur ≤ t.env.clock := by
  obtain ⟨n, ⟨hp, hc, ha, hb, htr, hcl⟩, hn, hd⟩ := floodLoop_flooded _ h
  have hnow := now_clock s.env
  refine ⟨n, ⟨hp, hc, ha, hb, htr, hnow.trans hcl⟩, fun h0 => hn ?_, ?_⟩
  · show s.env.now.clock + dur ≤ s.env.now.clock
    omega
  · omega

end Sent

/-- The events of an activation that ran to its end, and what it leaves. -/
theorem activateBody_eq_go {s t : State} (hfault : s.fault = none)
    (h : activateBody s = Flow.go t) :
    t.ready = true ∧ t.tstate = .idle ∧ t.lineA = .high ∧ t.lineB = .high ∧
      ∃ n, t.trace = s.trace ++ activateTrace s.par n ∧
        (s.cfg.activationDurationMs = 0 → n = 0) ∧
        s.env.clock + 100 + s.cfg.activationDurationMs ≤ t.env.clock := by
  obtain ⟨s6, h, hready⟩ := andThen_eq_go h
  obtain ⟨s5, h, hwake⟩ := andThen_eq_go h
  obtain ⟨s4, h, hstop⟩ := andThen_eq_go h
  obtain ⟨s3, h, hspeed⟩ := andThen_eq_go h
  obtain ⟨s2, h, hflood⟩ := andThen_eq_go h
  obtain ⟨s1, h, hreset⟩ := andThen_eq_go h
  obtain ⟨s0, h, hpulse⟩ := andThen_eq_go h
  obtain ⟨s', hopen, hidle⟩ := andThen_eq_go h
  obtain rfl := (require_eq_go hidle).2
  obtain ⟨hopen, rfl⟩ := require_eq_go hopen
  rw [resetPulse_eq ⟨of_decide_eq_true hopen, hfault⟩] at hpulse
  cases hpulse
  cases hready
  have hreset := softResetBody_sent hreset
  obtain ⟨n, hflood, hzero, hclock⟩ := flood_sent hflood
  obtain ⟨hwake, hstate⟩ := singleOpcode_sent hwake
  have hspeed :=
    writeRegister_sent (a := Params.regSpeed) (d := fun p => [p.speedVal]) hspeed
  have hlast := hspeed.trans ((cpuStop_sent hstop).trans hwake)
  have hall := hreset.trans (hflood.trans hlast)
  rw [hreset.cfg] at hzero hclock
  refine ⟨rfl, hstate, hall.lineA, hall.lineB, n, ?_, hzero, ?_⟩
  · refine hall.trace.trans ?_
    simp [activateTrace, stops, wSpeed, fcWakeUp]
  · exact (Nat.add_le_add_right hreset.clock _).trans (hclock.trans hlast.clock)

/-- Settles O45: an activation that neither fails nor hangs has run to its end. -/
theorem activateTraceForEveryFlood : Obligations.ActivateTraceForEveryFlood := by
  intro s t h hfault hbusy
  have hR := runs_opFrame .activate
  obtain ⟨hrest, u, hu, rfl⟩ := operation_completed (hR.activateBody (hR.tstate rfl) (hR.clock rfl)
    (hR.pulse rfl) (hR.restarted rfl) (hR.activated rfl)) h hfault hbusy
  have hdone := activateBody_eq_go (s := issued s) hrest.1 hu
  exact hdone

end Sys2Proof.Machine


namespace Sys2Proof.Machine

/-! ## The invariant (R4, R14, R17, R20, R118, R130, R140, R152 to R154, R160, R182)

Each clause is kept for its own reason: some by every statement (`Steady`), the bus mode by every
operation that runs on, the clauses on a failure by how an operation ends, and those on the gate and
on a transport never opened by which instructions are admitted there. -/

/-! ### The clauses that every statement keeps -/

/-- Everything the reset pulse can come to (R130). -/
theorem resetPulse_ok {s : State} {q : Progress} (h : resetPulse s = .ok q) :
    q = ⟨true, { waited 100 s with
      lineA := .high
      lineB := .high
      trace := s.trace ++ [.lines .low .low, .delay 100, .lines .high .high] }⟩ := by
  have hlive : Live s := by
    by_cases ht : s.transport = .opened
    · by_cases hf : s.fault = none
      · exact ⟨ht, hf⟩
      · rw [resetPulse, setLines, if_pos ht, if_neg hf] at h
        cases h
    · rw [resetPulse, setLines, if_neg ht] at h
      cases h
  rw [resetPulse_eq hlive] at h
  exact go_ok h

theorem openings_append (a b : List Event) : openings (a ++ b) = openings a + openings b := by
  simp [openings]

theorem closings_append (a b : List Event) : closings (a ++ b) = closings a + closings b := by
  simp [closings]

/-- The clauses of the invariant on the lines, the counts of opens and closes, and the cursor. -/
structure Steady (s : State) : Prop where
  lines : s.lineA = .high ∧ s.lineB = .high
  opened_once : openings s.trace = if s.transport = .closed then 0 else 1
  closed_once : closings s.trace = if s.transport = .finished then 1 else 0
  aligned : s.remaining ≠ 0 → s.cursor % 256 = 0
  bounded : s.cursor + s.remaining ≤ 2 ^ 24

namespace Steady

variable {s t : State}

/-- An event that opens and closes nothing, the transport as before. -/
theorem event {e : Event} (h : Steady s) (hl : t.lineA = .high ∧ t.lineB = .high)
    (hp : t.transport = s.transport) (hc : t.cursor = s.cursor) (hr : t.remaining = s.remaining)
    (ht : t.trace = s.trace ++ [e]) (ho : openings [e] = 0) (hx : closings [e] = 0) :
    Steady t where
  lines := hl
  opened_once := by rw [ht, openings_append, ho, hp, Nat.add_zero, h.opened_once]
  closed_once := by rw [ht, closings_append, hx, hp, Nat.add_zero, h.closed_once]
  aligned := by rw [hc, hr]; exact h.aligned
  bounded := by rw [hc, hr]; exact h.bounded

theorem transportWrite (buf : List Byte) :
    Keeps (fun s _ t => Steady s → Steady t) (transportWrite buf) := by
  intro s q hq h
  obtain ⟨-, -, e, -, rfl | rfl | rfl⟩ := transportWrite_ok hq
  · exact h.event h.lines rfl rfl rfl rfl rfl rfl
  · exact h.event h.lines rfl rfl rfl rfl rfl rfl
  · exact ⟨h.lines, h.opened_once, h.closed_once, h.aligned, h.bounded⟩

theorem frame : Frame fun s _ t => Steady s → Steady t :=
  ⟨fun _ h => h, fun _ _ _ _ hab hbc h => hbc (hab h), transportWrite⟩

theorem openTransport : Keeps (fun s _ t => Steady s → Steady t) openTransport := by
  intro s q hq h
  obtain ⟨hclosed, -, e, -, rfl | rfl⟩ := openTransport_ok hq
  · refine ⟨h.lines, ?_, ?_, h.aligned, h.bounded⟩
    · exact (openings_append ..).trans (by rw [h.opened_once, hclosed]; rfl)
    · exact (closings_append ..).trans (by rw [h.closed_once, hclosed]; rfl)
  · exact ⟨h.lines, h.opened_once, h.closed_once, h.aligned, h.bounded⟩

theorem closeTransport : Keeps (fun s _ t => Steady s → Steady t) closeTransport := by
  intro s q hq h
  obtain ⟨hopen, -, rfl⟩ := closeTransport_ok hq
  refine ⟨h.lines, ?_, ?_, h.aligned, h.bounded⟩
  · exact (openings_append ..).trans (by rw [h.opened_once, hopen]; rfl)
  · exact (closings_append ..).trans (by rw [h.closed_once, hopen]; rfl)

/-- The pulse ends with both lines high, whatever they were in it (R130). -/
theorem resetPulse : Keeps (fun s _ t => Steady s → Steady t) resetPulse := by
  intro s q hq h
  rw [resetPulse_ok hq]
  refine ⟨⟨rfl, rfl⟩, ?_, ?_, h.aligned, h.bounded⟩
  · exact (openings_append ..).trans h.opened_once
  · exact (closings_append ..).trans h.closed_once

/-- A chunk moves the cursor to the next page unless it was the last (R132). -/
theorem advanceCursor : Keeps (fun s _ t => Steady s → Steady t) advanceCursor := by
  intro s q hq h
  rw [go_ok hq]
  have haligned := h.aligned
  have hbounded := h.bounded
  refine ⟨h.lines, h.opened_once, h.closed_once, fun hr => ?_, ?_⟩ <;>
    simp only [chunkLen, pageChunk] at * <;> omega

theorem opFrame (i : Instr) : OpFrame i fun s _ t => Steady s → Steady t where
  toFrame := frame
  delay ms s q hq h := by
    rw [(delay_ok hq).2]
    exact h.event h.lines rfl rfl rfl rfl rfl rfl
  tstate _ _ _ h := ⟨h.lines, h.opened_once, h.closed_once, h.aligned, h.bounded⟩
  fifo _ := frame.writeFifoBody fun _ _ h =>
    ⟨h.lines, h.opened_once, h.closed_once, h.aligned, h.bounded⟩
  pulse _ := resetPulse
  clock _ _ _ _ _ _ _ _ h := ⟨h.lines, h.opened_once, h.closed_once, h.aligned, h.bounded⟩
  activated _ _ h := ⟨h.lines, h.opened_once, h.closed_once, h.aligned, h.bounded⟩
  restarted _ _ h := ⟨h.lines, h.opened_once, h.closed_once, h.aligned, h.bounded⟩
  start _ n s hn h :=
    ⟨h.lines, h.opened_once, h.closed_once, fun _ => rfl, (Nat.zero_add n).trans_le hn⟩
  advance _ := advanceCursor
  opens _ := openTransport
  closes _ := closeTransport
  unreadable _ _ _ h := ⟨h.lines, h.opened_once, h.closed_once, h.aligned, h.bounded⟩

end Steady

theorem exec_steady {i : Instr} {s t : State} (h : exec i s = .next t) (hs : Steady s) :
    Steady t := by
  have hissued : Steady (issued s) :=
    ⟨hs.lines, hs.opened_once, hs.closed_once, hs.aligned, hs.bounded⟩
  obtain ⟨-, ⟨u, hu, rfl⟩ | ht | ⟨b, rfl⟩⟩ := exec_keeps (Steady.opFrame i) h
  · obtain ⟨hl, ho, hc, ha, hb⟩ := hu hissued
    exact ⟨hl, ho, hc, ha, hb⟩
  · exact ht hissued
  · exact ⟨hs.lines, hs.opened_once, hs.closed_once, hs.aligned, hs.bounded⟩

/-! ### The bus mode -/

/-- Statements that run on leave the bus in normal mode if they find it so. -/
def StaysNormal (s : State) (r : Bool) (t : State) : Prop :=
  r = true → s.fifoMode = .normal → t.fifoMode = .normal

theorem staysNormal_of_eq {s t : State} {r : Bool} (h : t.fifoMode = s.fifoMode) :
    StaysNormal s r t := fun _ hs => h.trans hs

/-- A FIFO transfer that runs to its end has written the normal mode back (R114). -/
theorem writeFifoBody_staysNormal : KeepsFifo StaysNormal := by
  intro a d s q h hrun _
  obtain ⟨u, -, h⟩ | ⟨u, -, rfl⟩ := andThen_ok h
  · obtain ⟨v, -, h⟩ | ⟨v, -, rfl⟩ := andThen_ok h
    · rw [go_ok h]
    · cases hrun
  · cases hrun

theorem staysNormal_opFrame (i : Instr) : OpFrame i StaysNormal where
  refl _ := staysNormal_of_eq rfl
  trans _ _ _ _ hab hbc hr hs := hbc hr (hab rfl hs)
  write buf s q h := by
    obtain ⟨-, -, e, -, rfl | rfl | rfl⟩ := transportWrite_ok h <;> exact staysNormal_of_eq rfl
  delay ms s q h := by
    rw [(delay_ok h).2]
    exact staysNormal_of_eq rfl
  tstate _ _ _ := staysNormal_of_eq rfl
  fifo _ := writeFifoBody_staysNormal
  pulse _ s q h := by
    rw [resetPulse_ok h]
    exact staysNormal_of_eq rfl
  clock _ _ _ _ _ _ _ _ := staysNormal_of_eq rfl
  activated _ _ := staysNormal_of_eq rfl
  restarted _ _ := staysNormal_of_eq rfl
  start _ _ _ _ := staysNormal_of_eq rfl
  advance _ s q h := by
    rw [go_ok h]
    exact staysNormal_of_eq rfl
  opens _ s q h := by
    obtain ⟨-, -, e, -, rfl | rfl⟩ := openTransport_ok h <;> exact staysNormal_of_eq rfl
  closes _ s q h := by
    rw [(closeTransport_ok h).2.2]
    exact staysNormal_of_eq rfl
  unreadable _ _ _ := staysNormal_of_eq rfl

theorem OpFrame.and {i : Instr} {R R' : State → Bool → State → Prop} (h : OpFrame i R)
    (h' : OpFrame i R') : OpFrame i fun s r t => R s r t ∧ R' s r t where
  refl s := ⟨h.refl s, h'.refl s⟩
  trans a b r c hab hbc := ⟨h.trans a b r c hab.1 hbc.1, h'.trans a b r c hab.2 hbc.2⟩
  write buf s q hq := ⟨h.write buf s q hq, h'.write buf s q hq⟩
  delay ms s q hq := ⟨h.delay ms s q hq, h'.delay ms s q hq⟩
  tstate hi t s := ⟨h.tstate hi t s, h'.tstate hi t s⟩
  fifo hi a d s q hq := ⟨h.fifo hi a d s q hq, h'.fifo hi a d s q hq⟩
  pulse hi s q hq := ⟨h.pulse hi s q hq, h'.pulse hi s q hq⟩
  clock hi s ts c n r hc hn := ⟨h.clock hi s ts c n r hc hn, h'.clock hi s ts c n r hc hn⟩
  activated hi s := ⟨h.activated hi s, h'.activated hi s⟩
  restarted hi s := ⟨h.restarted hi s, h'.restarted hi s⟩
  start hi n s hn := ⟨h.start hi n s hn, h'.start hi n s hn⟩
  advance hi s q hq := ⟨h.advance hi s q hq, h'.advance hi s q hq⟩
  opens hi s q hq := ⟨h.opens hi s q hq, h'.opens hi s q hq⟩
  closes hi s q hq := ⟨h.closes hi s q hq, h'.closes hi s q hq⟩
  unreadable hi s hc := ⟨h.unreadable hi s hc, h'.unreadable hi s hc⟩

/-- An instruction that ends without a failure and without hanging leaves the bus in normal mode if
it found it so. -/
theorem exec_fifoMode {i : Instr} {s t : State} (h : exec i s = .next t)
    (hs : s.fifoMode = .normal) (hfault : t.fault = none) (hbusy : t.busy = false) :
    t.fifoMode = .normal := by
  have hand := (runs_opFrame i).and (staysNormal_opFrame i)
  obtain ⟨hR, ⟨u, ⟨-, hu⟩, rfl⟩ | ⟨hrun, -⟩ | ⟨b, rfl⟩⟩ := exec_keeps hand h
  · exact hu rfl hs
  · have hreach := (hrun (underway_issued hR)).2
    exact (not_reached_of_completed hreach hfault hbusy).elim
  · exact hs

/-! ### A session, by the stretch between its open and its close (R135) -/

/-- Every primitive but the open and the close leaves the transport. -/
theorem sessionMain_transport {image : Image} {s : State} {q : Progress}
    (h : sessionMain image s = .ok q) : q.state.transport = s.transport := by
  have hdelay : KeepsDelay fun s _ t => t.transport = s.transport := fun ms s q h => by
    rw [(delay_ok h).2]; rfl
  have hF : Frame fun s _ t => t.transport = s.transport :=
    ⟨fun _ => rfl, fun _ _ _ _ hab hbc => hbc.trans hab, fun buf s q h => by
      obtain ⟨-, -, e, -, rfl | rfl | rfl⟩ := transportWrite_ok h <;> rfl⟩
  refine hF.sessionMain (fun _ _ => rfl) (hF.writeFifoBody fun _ _ => rfl) hdelay
    (fun _ _ _ _ _ _ _ => rfl) (fun s q h => ?_) (fun _ => rfl) (fun _ => rfl)
    (fun _ _ _ => rfl) (fun s q h => ?_) s q h
  · rw [resetPulse_ok h]; rfl
  · rw [go_ok h]

/-- Everything a session can come to: refused while the transport is not closed; ended by an
unreadable image or by the device; or, from an open transport, ended where its main stretch stopped,
or closed after it. -/
theorem sessionOp_ok {image : Option Image} {s : State} {q : Progress}
    (h : sessionOp image s = .ok q) :
    s.transport = .closed ∧
      (q = ⟨false, raise .imageRead s⟩ ∨
        (∃ e, q = ⟨false, raise .transportOpen { s with env := e }⟩) ∨
        ∃ img u v, u.transport = .opened ∧
          ((sessionMain img u = Flow.halt v ∧ q = ⟨false, v⟩) ∨
            (sessionMain img u = Flow.go v ∧
              q = ⟨true, emit .closed { v with transport := .finished }⟩))) := by
  obtain ⟨u, hu, h⟩ | ⟨u, hu, -⟩ := andThen_ok h
  · obtain ⟨hclosed, hp⟩ := require_ok hu
    cases hp
    refine ⟨of_decide_eq_true hclosed, ?_⟩
    cases image with
    | none => exact .inl (halt_ok h)
    | some img =>
      obtain ⟨u, hopen, h⟩ | ⟨u, hopen, rfl⟩ := andThen_ok ((sessionBody_eq img s).symm.trans h)
      · obtain ⟨-, -, e, -, ho | ho⟩ := openTransport_ok hopen
        · cases ho
          obtain ⟨v, hv, h⟩ | ⟨v, hv, rfl⟩ := andThen_ok h
          · exact .inr (.inr ⟨img, _, v, rfl, .inr ⟨hv, (closeTransport_ok h).2.2⟩⟩)
          · exact .inr (.inr ⟨img, _, v, rfl, .inl ⟨hv, rfl⟩⟩)
        · cases ho
      · obtain ⟨-, -, e, -, ho | ho⟩ := openTransport_ok hopen
        · cases ho
        · cases ho
          exact .inr (.inl ⟨e, rfl⟩)
  · cases (require_ok hu).2

/-! ### What can hang (R182) -/

/-- Statements that stop without a failure stop while the transport is open. -/
def HangsOpen (_ : State) (r : Bool) (t : State) : Prop :=
  r = false → t.busy = true → t.transport = .opened

theorem hangsOpen_frame : Frame HangsOpen where
  refl _ := nofun
  trans _ _ _ _ _ hbc := hbc
  write buf s q h := by
    obtain ⟨hopen, -, e, -, rfl | rfl | rfl⟩ := transportWrite_ok h <;> exact fun _ _ => hopen

/-- Only an activation reads the clock, and so can stop without a write. -/
theorem hangsOpen_opFrame {i : Instr} (hi : activates i = false) : OpFrame i HangsOpen where
  toFrame := hangsOpen_frame
  delay ms s q h := by
    rw [(delay_ok h).2]
    exact nofun
  tstate _ _ _ := nofun
  fifo _ := hangsOpen_frame.writeFifoBody fun _ _ => nofun
  pulse ha := absurd (ha.symm.trans hi) nofun
  clock ha := absurd (ha.symm.trans hi) nofun
  activated ha := absurd (ha.symm.trans hi) nofun
  restarted _ _ := nofun
  start _ _ _ _ := nofun
  advance _ s q h := by
    rw [go_ok h]
    exact nofun
  opens _ s q h := by
    obtain ⟨-, -, e, -, rfl | rfl⟩ := openTransport_ok h
    · exact nofun
    · exact fun _ => nofun
  closes _ s q h := by
    rw [(closeTransport_ok h).2.2]
    exact nofun
  unreadable _ _ _ := fun _ => nofun

theorem exec_busy {i : Instr} {s t : State} (h : exec i s = .next t) (hb : t.busy = true) :
    t.transport = .opened := by
  have hR := (exec_ends h).1
  cases hi : activates i with
  | false =>
    obtain ⟨-, ⟨u, -, rfl⟩ | ht | ⟨b, rfl⟩⟩ := exec_keeps (hangsOpen_opFrame hi) h
    · cases hb
    · exact ht rfl hb
    · cases hb
  | true =>
    obtain rfl | ⟨image, rfl⟩ := eq_of_activates hi
    · rw [(exec_unwritten h).transport rfl rfl]
      by_contra hopen
      rw [exec_transportNotOpen hR hopen (.inr (.inl (by simp)))] at h
      cases h
    · obtain ⟨-, ⟨u, -, rfl⟩ | hhalt⟩ := operation_next h
      · cases hb
      · obtain ⟨-, hq | ⟨e, hq⟩ | ⟨img, u, v, hopen, ⟨hv, hq⟩ | ⟨hv, hq⟩⟩⟩ := sessionOp_ok hhalt
        · cases hq
          cases hb
        · cases hq
          cases hb
        · cases hq
          exact (sessionMain_transport hv).trans hopen
        · cases hq

/-! ### Before activation (R118, R160) -/

theorem programOp_eq_go {image : Image} {s t : State} (h : programOp image s = Flow.go t) :
    t.tstate = .idle ∧ t.ready = false := by
  obtain ⟨u, -, h⟩ := andThen_eq_go h
  obtain ⟨v, -, h⟩ := andThen_eq_go h
  exact softResetBody_ok h rfl

/-- An operation that soft-resets the target and completes leaves the block activated, or the
controller idle. -/
theorem exec_restarts_idle {i : Instr} {s t : State} (hi : restarts i = true)
    (h : exec i s = .next t) (hfault : t.fault = none) (hbusy : t.busy = false)
    (hready : t.ready = false) : t.tstate = .idle := by
  have hF := Runs.frame
  have hsoft : ∀ s t, operation (fun s => (requireOpen s).andThen softResetBody) s = .next t →
      t.fault = none → t.busy = false → t.tstate = .idle := by
    intro s t h hfault hbusy
    obtain ⟨-, u, hu, rfl⟩ := operation_completed
      (hF.seq hF.requireOpen (hF.softResetBody ((runs_opFrame .softReset).restarted rfl))) h
      hfault hbusy
    obtain ⟨v, -, hv⟩ := andThen_eq_go hu
    exact (softResetBody_ok hv rfl).1
  obtain (rfl | rfl | rfl) | ⟨image, rfl⟩ | ⟨image, rfl⟩ := eq_of_restarts hi
  · exact hsoft s t h hfault hbusy
  · exact hsoft s t h hfault hbusy
  · rw [(activateTraceForEveryFlood s t h hfault hbusy).1] at hready
    cases hready
  · have hR := runs_opFrame (.program image)
    obtain ⟨-, u, hu, rfl⟩ := operation_completed (hF.programOp (hR.tstate rfl) (hR.fifo rfl)
      hR.delay (hR.start rfl) (hR.advance rfl) (hR.restarted rfl) image) h hfault hbusy
    exact (programOp_eq_go hu).1
  · obtain ⟨-, u, hu, rfl⟩ := operation_completed (runs_opFrame (.session image)).sessionOp h
      hfault hbusy
    obtain ⟨-, hq | ⟨e, hq⟩ | ⟨img, u, v, -, ⟨-, hq⟩ | ⟨hv, hq⟩⟩⟩ := sessionOp_ok hu
    · cases hq
    · cases hq
    · cases hq
    · cases hq
      obtain ⟨w, -, hprogram⟩ := andThen_eq_go hv
      exact (programOp_eq_go hprogram).1

theorem exec_unready_idle {i : Instr} {s t : State} (hinv : Inv s) (h : exec i s = .next t)
    (hfault : t.fault = none) (hbusy : t.busy = false) (hready : t.ready = false) :
    t.tstate = .idle := by
  cases hi : restarts i with
  | true => exact exec_restarts_idle hi h hfault hbusy hready
  | false =>
    obtain ⟨hsf, hsb⟩ := (exec_ends h).1
    have hact : activates i = false := by
      refine eq_false_of_ne_true fun ha => ?_
      obtain rfl | ⟨image, rfl⟩ := eq_of_activates ha <;> cases hi
    have hs : s.ready = false := ((exec_unwritten h).ready hact hi).symm.trans hready
    have hmoves : movesController i = false := by
      have hlist := onlyTheseRunBeforeActivation i s t hinv hs h
      obtain rfl | rfl | rfl | rfl | ⟨a, d, rfl⟩ | ⟨a, d, rfl⟩ | rfl | ⟨image, rfl⟩ | rfl | rfl |
        rfl | ⟨a, rfl⟩ := hlist
      · rfl
      · cases hi
      · cases hi
      · cases hi
      · rfl
      · rfl
      · rfl
      · cases hi
      · rfl
      · rfl
      · rfl
      · rfl
    rw [(exec_unwritten h).tstate hmoves]
    exact hinv.unready_idle hsf hsb hs

/-! ### Before the transport is open (R151, R153) -/

theorem exec_closed_of_closed {i : Instr} {s t : State} (h : exec i s = .next t)
    (ht : t.transport = .closed) : s.transport = .closed := by
  have hR := (exec_ends h).1
  by_contra hs
  cases ho : opensPort i with
  | true =>
    rw [exec_transportNotClosed hR hs (eq_of_opensPort ho)] at h
    cases h
  | false =>
    cases hc : closesPort i with
    | true =>
      obtain rfl | ⟨image, rfl⟩ := eq_of_closesPort hc
      · obtain ⟨-, ⟨u, hu, rfl⟩ | hu⟩ := operation_next h
        · cases (closeTransport_ok hu).2.2
          cases ht
        · cases (closeTransport_ok hu).2.2
      · cases ho
    | false => exact hs (((exec_unwritten h).transport ho hc).symm.trans ht)

/-- An open or a session that leaves the transport closed has done nothing but latch a failure. -/
theorem exec_open_closed {i : Instr} {s t : State}
    (hi : i = .openPort ∨ ∃ image, i = .session image) (h : exec i s = .next t)
    (ht : t.transport = .closed) : ∃ f e, t = raise f { issued s with env := e } := by
  obtain rfl | ⟨image, rfl⟩ := hi
  · obtain ⟨-, ⟨u, hu, rfl⟩ | hu⟩ := operation_next h
    · obtain ⟨-, -, e, -, ho | ho⟩ := openTransport_ok hu <;> cases ho
      cases ht
    · obtain ⟨-, -, e, -, ho | ho⟩ := openTransport_ok hu <;> cases ho
      exact ⟨_, e, rfl⟩
  · obtain ⟨-, ⟨u, hu, rfl⟩ | hu⟩ := operation_next h
    · obtain ⟨-, hq | ⟨e, hq⟩ | ⟨img, u, v, -, ⟨-, hq⟩ | ⟨-, hq⟩⟩⟩ := sessionOp_ok hu <;> cases hq
      cases ht
    · obtain ⟨-, hq | ⟨e, hq⟩ | ⟨img, u, v, hopen, ⟨hv, hq⟩ | ⟨-, hq⟩⟩⟩ := sessionOp_ok hu <;>
        cases hq
      · exact ⟨_, _, rfl⟩
      · exact ⟨_, e, rfl⟩
      · exact absurd (((sessionMain_transport hv).trans hopen).symm.trans ht) nofun

/-- Nothing has been done while the transport has not been opened: what could do anything is
refused, and what fails there changes nothing else. -/
theorem exec_closed_untouched {i : Instr} {s t : State} (hinv : Inv s) (h : exec i s = .next t)
    (ht : t.transport = .closed) :
    t.trace = [] ∧ t.tstate = .idle ∧ t.fifoMode = .normal ∧ t.ready = false := by
  have hs := exec_closed_of_closed h ht
  have hsame := hinv.closed_untouched hs
  have fn : ∀ value, function value s = .next t →
      t.trace = [] ∧ t.tstate = .idle ∧ t.fifoMode = .normal ∧ t.ready = false := by
    intro value hv
    rw [(function_next hv).2]
    exact hsame
  by_cases hopens : i = .openPort ∨ ∃ image, i = .session image
  · obtain ⟨f, e, rfl⟩ := exec_open_closed hopens h ht
    exact hsame
  have hnot : ¬ ((needsIdle i = true ∨ needsCommand i = true) ∨
      (i = .softReset ∨ i = .mcuSoftReset ∨ i = .activate) ∨
      (∃ a d, i = .writeReg a d) ∨ i = .closePort) := by
    intro hi
    rw [exec_transportNotOpen (exec_ends h).1 (by rw [hs]; nofun) hi] at h
    cases h
  obtain hi | rfl | rfl | rfl | ⟨a, d, rfl⟩ | hi | hi | hi | rfl | rfl | rfl | ⟨a, rfl⟩ :=
    onlyTheseRunBeforeActivation i s t hinv hsame.2.2.2 h
  · exact absurd (.inl hi) hopens
  · exact absurd (.inr (.inl (by simp))) hnot
  · exact absurd (.inr (.inl (by simp))) hnot
  · exact absurd (.inr (.inl (by simp))) hnot
  · exact fn (fun s => encodePacket s.par a d) h
  · exact absurd (.inr (.inr (.inl hi))) hnot
  · exact absurd (.inr (.inr (.inr hi))) hnot
  · exact absurd (.inr hi) hopens
  · exact fn (fun s => bitFrame s.par true) h
  · exact fn (fun s => bitFrame s.par false) h
  · exact fn (fun _ => termFrame) h
  · exact fn (fun _ => header a) h

/-! ### The whole invariant -/

theorem Inv.steady {s : State} (h : Inv s) : Steady s :=
  ⟨h.lines_high, h.opened_once, h.closed_once, h.cursor_aligned, h.cursor_bounded⟩

/-- The invariant says nothing of what the host will do. -/
theorem Inv.withHost {s : State} (h : Inv s) (rest : List HostAction) :
    Inv { s with host := rest } :=
  ⟨h.failed_not_busy, h.resting_normal, h.baud_fixed, h.unready_idle, h.lines_high,
    h.closed_untouched, h.opened_once, h.closed_once, h.write_failure, h.no_silent_failure,
    h.early_failure, h.busy_connected, h.cursor_aligned, h.cursor_bounded⟩

/-- The failures other than that of a write come before the transport is open. -/
theorem exec_early_failure {i : Instr} {s t : State} (h : exec i s = .next t)
    (hfault : t.fault = some .transportOpen ∨ t.fault = some .imageRead) :
    t.transport = .closed := by
  obtain ⟨-, ⟨u, r, hu, -, rfl, -⟩ | hreach⟩ := exec_ends h
  · simp [hu.fault] at hfault
  · cases hreach with
    | underway ev ht => simp [ht.fault] at hfault
    | writeFailed ev buf ht => simp [ht.fault] at hfault
    | early f ev ht hf hclosed => exact hclosed

/-- Without a latched write failure no failed write has been added to the trace. -/
theorem exec_no_failed_write {i : Instr} {s t : State} (h : exec i s = .next t)
    (hfault : t.fault ≠ some .transportWrite) (hs : NoFailedWrite s.trace) :
    NoFailedWrite t.trace := by
  obtain ⟨-, ⟨u, r, -, hreach, rfl, -⟩ | hreach⟩ := exec_ends h
  · cases hreach with
    | underway ev _ htrace hclean =>
      rw [completed_trace, htrace]
      exact hs.append hclean
  · cases hreach with
    | underway ev _ htrace hclean =>
      rw [htrace]
      exact hs.append hclean
    | writeFailed ev buf ht => exact absurd ht.fault hfault
    | early f ev _ _ _ htrace hclean =>
      rw [htrace]
      exact hs.append hclean

theorem exec_inv {i : Instr} {s t : State} (hinv : Inv s) (h : exec i s = .next t) : Inv t := by
  obtain ⟨hsf, hsb, hends⟩ := everyOperationEndsOneWay i s t h
  obtain ⟨hlines, hopened, hclosed, haligned, hbounded⟩ := exec_steady h hinv.steady
  exact {
    failed_not_busy := fun hf => by
      obtain ⟨hnone, -⟩ | ⟨f, -, hb, -⟩ | ⟨hnone, -⟩ := hends
      · exact absurd hnone hf
      · exact hb
      · exact absurd hnone hf
    resting_normal := exec_fifoMode h (hinv.resting_normal hsf hsb)
    baud_fixed := by rw [(exec_grows h).cfg, hinv.baud_fixed]
    unready_idle := exec_unready_idle hinv h
    lines_high := hlines
    closed_untouched := exec_closed_untouched hinv h
    opened_once := hopened
    closed_once := hclosed
    write_failure := fun hf => by
      obtain ⟨-, -, hopen, before, buf, htrace, -⟩ := writeFailureIsPrecise i s t h hf
      exact ⟨hopen, buf, by rw [htrace, List.getLast?_append, List.getLast?_singleton]; rfl⟩
    no_silent_failure := fun hf =>
      exec_no_failed_write h hf (hinv.no_silent_failure (by simp [hsf]))
    early_failure := exec_early_failure h
    busy_connected := exec_busy h
    cursor_aligned := haligned
    cursor_bounded := hbounded }

/-- Settles O54: the wait keeps the state, a reset makes it anew, and an issued instruction keeps
the invariant clause by clause. -/
theorem stepKeepsTheInvariant : Obligations.StepKeepsTheInvariant := by
  intro s t hinv h
  obtain ⟨-, -, rfl⟩ | ⟨cfg, rest, -, -, rfl⟩ | ⟨c, rest, i, -, -, hexec⟩ := step_next h
  · exact hinv
  · exact inv_of_reset rfl
  · exact exec_inv (hinv.withHost rest) hexec

end Sys2Proof.Machine
